-- ==== Sys2Proof/Word.lean ====
section
/-! DEFINITION. The words of the block: register widths (spec/00_scope.md R10) and the words of its three ports
(spec/30_encoding.md R70, R79, R80). -/

namespace Sys2Proof

/-- A channel value, `RDATA`, and every byte handed to the link: 8 bits, unsigned (R10). -/
abbrev Byte := BitVec 8

/-- `activeCount`, `snap` and the cursor index `i`: 10 bits, unsigned (R10). -/
abbrev Count := BitVec 10

/-- A host command word (R70). -/
abbrev CommandWord := BitVec 32

/-- A delivery word `{trigger[1:0], tcq, srq}` (R79). -/
abbrev DeliveryWord := BitVec 4

/-- A link action word `{K, P}` (R80). -/
abbrev ActionWord := BitVec 11

end Sys2Proof
end

