-- ==== Sys2Proof/Syntax.lean ====
section
/-! DEFINITION. The names of the spec as data: what the block can be told to do (`Instr`, one constructor per row of
spec/opcode_table.json), and the closed sets of names its rules use. -/

namespace Sys2Proof

/-- The two link configurations a byte can be sent in (spec/00_scope.md R9, spec/42_link_interface.md R184).
The unconfigured mode `None` of R170 is the absence of one. -/
inductive WireMode where
  /-- `BRK`: break speed and framing. -/
  | brk
  /-- `DAT`: data speed and framing. -/
  | dat
deriving DecidableEq, Repr, Inhabited

/-- Which notification the core takes (spec/10_state.md R27). -/
inductive Trigger where
  | none
  | sr
  | tc
deriving DecidableEq, Repr, Inhabited

/-- The cursor's phase (spec/10_state.md R24). `data` carries its index in the register `i` (R25). -/
inductive Phase where
  /-- `Idle`: before the first INIT and after TERM. -/
  | idle
  /-- `Break`: the break byte is on its way. -/
  | brk
  /-- `StartCode`: the start code is on its way. -/
  | startCode
  /-- `Data(i)`: `i` is the next channel to send, or `snap + 1` in the drain wait. -/
  | data
deriving DecidableEq, Repr, Inhabited

/-- The two interrupt sources (spec/60_exceptions.md R201). -/
inductive Notification where
  | sr
  | tc
deriving DecidableEq, Repr, Inhabited

/-- The reasons a command is refused (spec/60_exceptions.md R208). -/
inductive RefusalReason where
  /-- `REF_RESERVED_OPCODE`, code 1 (R75). -/
  | reservedOpcode
  /-- `REF_NONZERO_RESERVED_BITS`, code 2 (R76). -/
  | nonzeroReservedBits
  /-- `REF_RAW_INDEX_RANGE`, code 3 (R77). -/
  | rawIndexRange
  /-- `REF_INIT_WHILE_ACTIVE`, code 4 (R103). -/
  | initWhileActive
deriving DecidableEq, Repr

/-- One entry of the wire trace (spec/00_scope.md R15, spec/42_link_interface.md R170). -/
inductive TraceEntry where
  /-- A byte shifted completely onto the wire, with the mode it was sent in. -/
  | sent (mode : Option WireMode) (b : Byte)
  /-- A byte abandoned after TERM (R181). -/
  | cut
  /-- Bytes whose bits are not known, because the mode changed while they shifted (R174). -/
  | corrupt
deriving DecidableEq, Repr, Inhabited

/-- One slot of a schedule: the agent that may move next (spec/20_memory.md R58, spec/30_encoding.md R81). -/
inductive Slot where
  /-- The host: the command at the head of the command port. -/
  | host
  /-- The core: the notification the delivery word selects (`@SR` or `@TC`). -/
  | core
  /-- The link: the completion step `@L` (R177). -/
  | complete
  /-- The link: the abandon step `@CUT` (R181). -/
  | abandon
  /-- An outside driver: the action word at the head of the action port (95_test_vectors.md V10). -/
  | action
deriving DecidableEq, Repr, Inhabited

/-- What the block can be told to do: one constructor per row of spec/opcode_table.json. Operands are the mathematical
values of R73 and R112, not raw fields. -/
inductive Instr where
  /-- INIT (R101). -/
  | init
  /-- WRITE ch, v (R104). -/
  | write (ch v : Int)
  /-- READ ch (R106). -/
  | read (ch : Int)
  /-- SETCOUNT n (R107). -/
  | setcount (n : Int)
  /-- BUFRD idx (R108). -/
  | bufrd (idx : Nat)
  /-- BUFWR idx, d (R109). -/
  | bufwr (idx : Nat) (d : Byte)
  /-- TERM (R110). -/
  | term
  /-- The notification SR and its handler (R141). -/
  | sr
  /-- The notification TC and its handler (R144). -/
  | tc
  /-- LinkEnable(e) (R172). -/
  | linkEnable (e : Bool)
  /-- LinkConfigure(m) (R173). -/
  | linkConfigure (m : WireMode)
  /-- LinkSend(b) (R175). -/
  | linkSend (b : Byte)
  /-- LinkSelect(t) (R176). -/
  | linkSelect (t : Trigger)
deriving DecidableEq, Repr

/-- A word on one of the block's three ports. -/
inductive PortWord where
  /-- The host command port (R70). -/
  | command (w : CommandWord)
  /-- The notification port (R79). -/
  | delivery (w : DeliveryWord)
  /-- The link action port (R80). -/
  | action (w : ActionWord)
deriving DecidableEq, Repr

end Sys2Proof
end

