-- ==== Sys2Proof/Config.lean ====
section
/-! DEFINITION. The implementation parameters of spec/00_scope.md R8 at the value this hardware takes, and the free values
the spec leaves open. -/

namespace Sys2Proof.Config

/-- `CAPACITY`: the highest channel (R8). -/
def capacity : Nat := 512

/-- `DEFAULT_COUNT`: `activeCount` after INIT (R8). -/
def defaultCount : Nat := 32

/-- `START_CODE` (R8). -/
def startCode : Byte := 0x00#8

/-- `BREAK_BYTE` (R8). -/
def breakByte : Byte := 0x00#8

/-- `LINK_HOLD_DEPTH`: the bytes the holding register takes, one (R8); `Link.hold` is an `Option` for that reason. -/
def linkHoldDepth : Nat := 1

/-- `CMD_WIDTH`: the width of `CommandWord` (R8). -/
def cmdWidth : Nat := 32

/-- The parity of a framing (R8). -/
inductive Parity where
  | none
  | even
deriving DecidableEq, Repr

/-- The speed and framing of a link mode (R8, R9). -/
structure LineSettings where
  baud : Nat
  dataBits : Nat
  parity : Parity
  stopBits : Nat
deriving DecidableEq, Repr

/-- `BREAK_BAUD` and `BREAK_FORMAT` (R8). -/
def breakSettings : LineSettings := { baud := 100000, dataBits := 8, parity := .even, stopBits := 1 }

/-- `DATA_BAUD` and `DATA_FORMAT` (R8). -/
def dataSettings : LineSettings := { baud := 250000, dataBits := 8, parity := .none, stopBits := 2 }

/-- FREE VALUE. The agent that moves at the `n`-th step whose schedule is empty: any one
(spec/60_exceptions.md R212, "Any one of them may be taken next"). Log entry 5. -/
opaque freeSlot : Nat → Slot

/-- FREE VALUE. The entry the `n`-th link step after a fault adds to the trace: "what they show of the wire is not
constrained" (spec/60_exceptions.md R207, spec/42_link_interface.md R174). Log entry 3. -/
opaque freeEntry : Nat → TraceEntry

end Sys2Proof.Config
end

