-- ==== Sys2Proof/WellFormed.lean ====
section
/-! DEFINITION. Which instruction terms can be assembled: every operand within its field (spec/30_encoding.md R73, R81:
"An operand outside its field's range cannot be assembled") and every raw index mapped (R77). -/

namespace Sys2Proof

/-- `ch` and `n`, signed 12 bits (R73). -/
def signed12 (x : Int) : Bool := decide (-2048 ≤ x) && decide (x ≤ 2047)

/-- `v`, signed 16 bits (R73). -/
def signed16 (x : Int) : Bool := decide (-32768 ≤ x) && decide (x ≤ 32767)

/-- `idx`, an index of the buffer (R77). -/
def mapped (idx : Nat) : Bool := decide (idx ≤ Config.capacity)

/-- The instruction has an encoding. -/
def Instr.wf : Instr → Bool
  | .init => true
  | .write ch v => signed12 ch && signed16 v
  | .read ch => signed12 ch
  | .setcount n => signed12 n
  | .bufrd idx => mapped idx
  | .bufwr idx _ => mapped idx
  | .term => true
  | .sr => true
  | .tc => true
  | .linkEnable _ => true
  | .linkConfigure _ => true
  | .linkSend _ => true
  | .linkSelect _ => true

end Sys2Proof
end

