-- ==== Sys2Proof/Decode.lean ====
section
/-! DEFINITION. The encodings of spec/30_encoding.md: decoding of the three ports' words, total and rejecting by name,
and the encoder written from the same tables. -/

namespace Sys2Proof

/-- What a word stands for. -/
inductive Decoded where
  | instr (i : Instr)
  /-- The command word is refused (R75 to R78). -/
  | refused (r : RefusalReason)
  /-- The delivery word delivers nothing: masked or not pending (R79). -/
  | notDelivered
  /-- The action word is none of R80's. -/
  | undefinedAction
deriving DecidableEq, Repr

/-! ## Internal state encodings (R85) -/

/-- `trigger` in 2 bits (R85). -/
def triggerCode : Trigger → BitVec 2
  | .none => 0b00#2
  | .sr => 0b01#2
  | .tc => 0b10#2

/-- The trigger a code stands for; 0b11 is never held (R27). -/
def triggerOfCode (c : BitVec 2) : Option Trigger :=
  match c.toNat with
  | 0 => some .none
  | 1 => some .sr
  | 2 => some .tc
  | _ => none

/-- `phase` in 2 bits (R85). -/
def phaseCode : Phase → BitVec 2
  | .idle => 0b00#2
  | .brk => 0b01#2
  | .startCode => 0b10#2
  | .data => 0b11#2

/-- The link mode in 2 bits; `None` is the absence of a mode (R85). -/
def modeCode : Option WireMode → BitVec 2
  | none => 0b00#2
  | some .brk => 0b01#2
  | some .dat => 0b10#2

/-- The mode a LinkConfigure payload names (R80). -/
def modeOfCode (c : BitVec 2) : Option WireMode :=
  match c.toNat with
  | 1 => some .brk
  | 2 => some .dat
  | _ => none

/-! ## The fields of a command word (R71, R73) -/

/-- `OP = w[31:28]`. -/
def opField (w : CommandWord) : BitVec 4 := w.extractLsb' 28 4

/-- `A = w[27:16]`. -/
def aField (w : CommandWord) : BitVec 12 := w.extractLsb' 16 12

/-- `B = w[15:0]`. -/
def bField (w : CommandWord) : BitVec 16 := w.extractLsb' 0 16

/-- `w[15:8]`. -/
def bHigh (w : CommandWord) : BitVec 8 := w.extractLsb' 8 8

/-- `d = w[7:0]`. -/
def dField (w : CommandWord) : Byte := w.extractLsb' 0 8

/-- `sext_12(w[27:16])`: `ch` and `n` (R73). -/
def signedA (w : CommandWord) : Int := (aField w).toInt

/-- `sext_16(w[15:0])`: `v` (R73). -/
def signedB (w : CommandWord) : Int := (bField w).toInt

/-- `zext_12(w[27:16])`: `idx` (R73). -/
def indexA (w : CommandWord) : Nat := (aField w).toNat

/-! ## Decoding -/

/-- Refuse unless the must-be-zero bits of the word's format are zero (R76). -/
def whenZero (reserved : Bool) (d : Decoded) : Decoded :=
  if reserved then d else .refused .nonzeroReservedBits

/-- Refuse unless the raw index is mapped (R77). -/
def whenMapped (idx : Nat) (d : Decoded) : Decoded :=
  if mapped idx then d else .refused .rawIndexRange

/-- `decode(w)` of R78: the must-be-zero check comes before the index range check. -/
def decodeCommand (w : CommandWord) : Decoded :=
  match (opField w).toNat with
  | 1 => whenZero (aField w == 0 && bField w == 0) (.instr .init)
  | 2 => .instr (.write (signedA w) (signedB w))
  | 3 => whenZero (bField w == 0) (.instr (.read (signedA w)))
  | 4 => whenZero (bField w == 0) (.instr (.setcount (signedA w)))
  | 5 => whenZero (bField w == 0) (whenMapped (indexA w) (.instr (.bufrd (indexA w))))
  | 6 => whenZero (bHigh w == 0) (whenMapped (indexA w) (.instr (.bufwr (indexA w) (dField w))))
  | 7 => whenZero (aField w == 0 && bField w == 0) (.instr .term)
  | _ => .refused .reservedOpcode

/-- The delivery table of R79: `01x1` is SR, `101x` is TC, any other word delivers nothing. -/
def decodeDelivery (w : DeliveryWord) : Decoded :=
  match (w.extractLsb' 2 2).toNat, w.getLsbD 1, w.getLsbD 0 with
  | 1, _, true => .instr .sr
  | 2, true, _ => .instr .tc
  | _, _, _ => .notDelivered

/-- An action word's decoding: its kind `K = a[10:8]` and payload `P = a[7:0]` (R80). -/
def decodeAction (a : ActionWord) : Decoded :=
  let p : Byte := a.extractLsb' 0 8
  match (a.extractLsb' 8 3).toNat with
  | 1 => if p.extractLsb' 1 7 == 0 then .instr (.linkEnable (p.getLsbD 0)) else .undefinedAction
  | 2 =>
    match p.extractLsb' 2 6 == 0, modeOfCode (p.extractLsb' 0 2) with
    | true, some m => .instr (.linkConfigure m)
    | _, _ => .undefinedAction
  | 3 => .instr (.linkSend p)
  | 4 =>
    match p.extractLsb' 2 6 == 0, triggerOfCode (p.extractLsb' 0 2) with
    | true, some t => .instr (.linkSelect t)
    | _, _ => .undefinedAction
  | _ => .undefinedAction

/-- Decoding of a word on the port it stands on. -/
def decode : PortWord → Decoded
  | .command w => decodeCommand w
  | .delivery w => decodeDelivery w
  | .action a => decodeAction a

/-- A command word from the four bytes of a byte-wide bus, least significant byte first (spec/20_memory.md R54). -/
def commandOfBytes (b0 b1 b2 b3 : Byte) : CommandWord := b3 ++ b2 ++ b1 ++ b0

/-- The four bytes of a command word in the order a byte-wide bus carries them (R54). -/
def bytesOfCommand (w : CommandWord) : List Byte :=
  [w.extractLsb' 0 8, w.extractLsb' 8 8, w.extractLsb' 16 8, w.extractLsb' 24 8]

/-- The next command of a byte-wide bus and the bytes after it; `none` while fewer than four bytes are there. -/
def decodeBytes : List Byte → Option (Decoded × List Byte)
  | b0 :: b1 :: b2 :: b3 :: rest => some (decodeCommand (commandOfBytes b0 b1 b2 b3), rest)
  | _ => none

/-! ## Encoding -/

/-- The command word `{OP, A, B}` (R71). -/
def commandWord (op : BitVec 4) (a : BitVec 12) (b : BitVec 16) : CommandWord := op ++ a ++ b

/-- The action word `{K, P}` (R80). -/
def actionWord (k : BitVec 3) (p : Byte) : ActionWord := k ++ p

/-- The word of an instruction, by R72 to R74, R79 and R80. A don't-care bit of a delivery word is 0. -/
def encode : Instr → PortWord
  | .init => .command (commandWord 0x1#4 0 0)
  | .write ch v => .command (commandWord 0x2#4 (BitVec.ofInt 12 ch) (BitVec.ofInt 16 v))
  | .read ch => .command (commandWord 0x3#4 (BitVec.ofInt 12 ch) 0)
  | .setcount n => .command (commandWord 0x4#4 (BitVec.ofInt 12 n) 0)
  | .bufrd idx => .command (commandWord 0x5#4 (BitVec.ofNat 12 idx) 0)
  | .bufwr idx d => .command (commandWord 0x6#4 (BitVec.ofNat 12 idx) (d.setWidth 16))
  | .term => .command (commandWord 0x7#4 0 0)
  | .sr => .delivery 0b0101#4
  | .tc => .delivery 0b1010#4
  | .linkEnable e => .action (actionWord 0b001#3 ((BitVec.ofBool e).setWidth 8))
  | .linkConfigure m => .action (actionWord 0b010#3 ((modeCode (some m)).setWidth 8))
  | .linkSend b => .action (actionWord 0b011#3 b)
  | .linkSelect t => .action (actionWord 0b100#3 ((triggerCode t).setWidth 8))

/-! ## The host's reading of one table row -/

/-- The port word that `nbits` bits with value `w` stand for: a row of 4 bits is a delivery word, one of 11 bits an action
word, one of 32 bits a command word (spec/opcode_table.json). -/
def tablePortWord (nbits w : Nat) : Option PortWord :=
  if nbits ≤ 8 then (if w < 2 ^ 4 then some (.delivery (BitVec.ofNat 4 w)) else none)
  else if nbits ≤ 16 then (if w < 2 ^ 11 then some (.action (BitVec.ofNat 11 w)) else none)
  else if w < 2 ^ 32 then some (.command (BitVec.ofNat 32 w)) else none

/-- The instruction a decoding holds. -/
def decodedInstr : Decoded → Option Instr
  | .instr i => some i
  | .refused _ => none
  | .notDelivered => none
  | .undefinedAction => none

/-- The instruction the decoder reads from a table word. -/
def decodeTableWord (nbits w : Nat) : Option Instr :=
  match tablePortWord nbits w with
  | some p => decodedInstr (decode p)
  | none => none

end Sys2Proof
end

