-- ==== Sys2Proof/Machine/State.lean ====
section
/-! DEFINITION. Everything the spec gives the machine to hold (spec/10_state.md, spec/42_link_interface.md R170,
spec/60_exceptions.md R206 and R208), as plain data, with its reset (spec/10_state.md R35). -/

namespace Sys2Proof.Machine

/-! ## Marks -/

/-- The codes of the model's faults (spec/60_exceptions.md R206). -/
inductive FaultCode where
  /-- `FLT_LINE_CORRUPT`, code 1. -/
  | lineCorrupt
  /-- `FLT_OVERRUN`, code 2. -/
  | overrun
  /-- `FLT_SEND_DISABLED`, code 3. -/
  | sendDisabled
deriving DecidableEq, Repr

/-- What a fault records: its cause and "the recorded information" of R206. -/
inductive FaultRecord where
  /-- The mode requested of a busy link. -/
  | lineCorrupt (requested : WireMode)
  /-- The byte discarded because the holding register was full. -/
  | overrun (discarded : Byte)
  /-- The byte discarded because the link was disabled. -/
  | sendDisabled (discarded : Byte)
deriving DecidableEq, Repr

/-! ## The serial link (R170) -/

/-- The reference link's registers. -/
structure Link where
  /-- `L.en`. -/
  en : Bool
  /-- `L.mode`; `none` is unconfigured. -/
  mode : Option WireMode
  /-- `L.hold`, the "next byte" slot. -/
  hold : Option Byte
  /-- `L.shift`, the byte being shifted onto the wire. -/
  shift : Option Byte
  /-- `L.txc`, the transmit-complete pending flag. -/
  txc : Bool
  /-- `L.trace`, the wire trace, oldest first. -/
  trace : List TraceEntry
deriving DecidableEq, Repr

/-! ## The channel buffer (R22, R50) -/

/-- The channel buffer: its bytes by index. An unlisted index reads 0x00, the reset contents (R57). -/
abbrev Memory := List Host.Cell

/-- Every listed index lies above `lo` and rises, is a channel of the buffer, and holds no 0x00. -/
def Memory.wfAbove (lo : Nat) : Memory → Bool
  | [] => true
  | (a, v) :: rest =>
    decide (lo < a) && decide (a ≤ Config.capacity) && decide (v ≠ 0x00#8) && Memory.wfAbove a rest

/-- The canonical form: indices strictly rising within 1..CAPACITY, no entry equal to what an unlisted index reads as. -/
def Memory.wf (m : Memory) : Bool := Memory.wfAbove 0 m

/-! ## The machine -/

/-- The block, the link, the model's marks, and the outside world's pending inputs. -/
structure State where
  /-- `values` (R22). -/
  values : Memory
  /-- `activeCount` (R23). -/
  activeCount : Count
  /-- `phase` (R24). -/
  phase : Phase
  /-- `i` (R25). -/
  index : Count
  /-- `snap` (R26). -/
  snap : Count
  /-- `trigger` (R27). -/
  trigger : Trigger
  /-- `RDATA` (R28). -/
  rdata : Byte
  /-- The serial link (R29, R170). -/
  link : Link
  /-- `S.faults`: a set, kept in rising order of its codes (R206). -/
  faults : List FaultCode
  /-- What each fault recorded, oldest first (R206). -/
  faultRecords : List FaultRecord
  /-- `S.refused` (R208). -/
  refused : Bool
  /-- The reasons recorded, oldest first (R208). -/
  refusals : List RefusalReason
  /-- The host command port: words issued and not yet performed, the head next (R70, R100, R111). -/
  port : List CommandWord
  /-- The link action port as an outside driver uses it, the head next (R80, V10). Log entry 7. -/
  actionPort : List ActionWord
  /-- MODEL'S OWN: the agents that move next (R58, R81). Log entry 4. -/
  schedule : List Slot
  /-- MODEL'S OWN: how many free values have been taken. Log entry 5. -/
  freeCount : Nat
deriving DecidableEq, Repr

/-- Why a step stops. -/
inductive Fault where
  /-- Raised by a buffer access at an index beyond CAPACITY, which the spec does not map (R51, "No rule calls either
  primitive with `idx > CAPACITY`", R53): the SR handler in an unreachable state with `snap` above CAPACITY. Safe. -/
  | unmappedIndex (idx : Nat)
deriving DecidableEq, Repr

/-- Why the model gives a step no meaning. -/
inductive Refusal where
  /-- Raised by an arm of `exec` whose instruction has no meaning yet. Safe. -/
  | notModelled (mnemonic : String)
  /-- Raised by the action port on a word that is none of R80's ("The core never emits any other action word"). Safe. -/
  | undefinedActionWord (a : ActionWord)
deriving DecidableEq, Repr

/-- A step's outcome. -/
abbrev Result := Host.Outcome State Fault Refusal

/-- The link after power-on (R35, R170). -/
def Link.reset : Link :=
  { en := false, mode := none, hold := none, shift := none, txc := false, trace := [] }

/-- The machine after power-on reset (R35, R230). `index` and `snap` have no value in the spec: DESIGN CHOICE, the least
legal value 1 (log entries 8 and 9). The ports and the schedule are the outside world's and start empty (log entries 4, 6, 7). -/
def State.reset : State :=
  { values := []
    activeCount := BitVec.ofNat 10 Config.defaultCount
    phase := .idle
    index := 1#10
    snap := 1#10
    trigger := .none
    rdata := 0x00#8
    link := Link.reset
    faults := []
    faultRecords := []
    refused := false
    refusals := []
    port := []
    actionPort := []
    schedule := []
    freeCount := 0 }

end Sys2Proof.Machine
end

