-- ==== Sys2Proof/Machine/Flags.lean ====
section
/-! DEFINITION. The block has no condition codes (spec/10_state.md R31). Its one flag is `L.txc`; this file holds every
condition computed from the link and the trigger: link idle, the two request lines, the delivery word. -/

namespace Sys2Proof.Machine

/-- `LinkIdle(L)` (spec/42_link_interface.md R171). -/
def linkIdle (l : Link) : Bool := l.shift.isNone && l.hold.isNone

/-- `srq`, "byte slot ready": a level (R178). -/
def srq (l : Link) : Bool := l.en && l.hold.isNone

/-- `tcq`, "last byte fully on the wire" (R179). -/
def tcq (l : Link) : Bool := l.en && l.txc && linkIdle l

/-- The delivery word `{trigger[1:0], tcq, srq}` (spec/30_encoding.md R79). -/
def deliveryWord (s : State) : DeliveryWord :=
  triggerCode s.trigger ++ BitVec.ofBool (tcq s.link) ++ BitVec.ofBool (srq s.link)

/-- The fault mark is empty (spec/60_exceptions.md R207). -/
def faultFree (s : State) : Bool := s.faults.isEmpty

end Sys2Proof.Machine
end

