-- ==== Sys2Proof/Machine/Operands.lean ====
section
/-! DEFINITION. The operand forms of the host commands (spec/30_encoding.md R73, spec/40_host_commands.md R112): mathematical
integers, clamped where the rule says so. -/

namespace Sys2Proof.Machine

/-- `clamp(x, lo, hi)` (spec/00_scope.md R12). -/
def clamp (x lo hi : Int) : Int := if x < lo then lo else if hi < x then hi else x

/-- The channel an operand `ch` names, or the count an operand `n` sets: clamped into 1..CAPACITY (R104, R106, R107). -/
def clampChannel (x : Int) : Nat := (clamp x 1 Config.capacity).toNat

/-- The level an operand `v` stores: clamped into 0..255 (R104). -/
def clampLevel (v : Int) : Byte := BitVec.ofInt 8 (clamp v 0 255)

end Sys2Proof.Machine
end

