-- ==== Sys2Proof/Machine/Ops.lean ====
section
/-! DEFINITION. The named operations every meaning is written with: register writes, the channel buffer, the marks, the four
link actions, the two link steps, handler entry and return. -/

namespace Sys2Proof.Machine

/-! ## Register writes -/

def setValues (m : Memory) (s : State) : State := { s with values := m }
def setActiveCount (n : Count) (s : State) : State := { s with activeCount := n }
def setPhase (p : Phase) (s : State) : State := { s with phase := p }
def setIndex (i : Count) (s : State) : State := { s with index := i }
def setSnap (n : Count) (s : State) : State := { s with snap := n }
def setTrigger (t : Trigger) (s : State) : State := { s with trigger := t }
def setRdata (b : Byte) (s : State) : State := { s with rdata := b }
def setLink (l : Link) (s : State) : State := { s with link := l }
def setPort (ws : List CommandWord) (s : State) : State := { s with port := ws }
def setActionPort (ws : List ActionWord) (s : State) : State := { s with actionPort := ws }
def setSchedule (q : List Slot) (s : State) : State := { s with schedule := q }
def setFreeCount (n : Nat) (s : State) : State := { s with freeCount := n }

/-- `S.phase <- Data(i)` writes the phase and its index (spec/10_state.md R24, R25). -/
def setData (i : Count) (s : State) : State := setIndex i (setPhase .data s)

/-! ## The channel buffer (spec/20_memory.md R53) -/

/-- The byte listed at an index; an unlisted index reads 0x00, the reset contents (R57). -/
def memLookup (a : Nat) : Memory → Byte
  | [] => 0x00#8
  | (b, v) :: rest => if a = b then v else memLookup a rest

/-- Listing a byte at an index, in the canonical form: the indices rise and 0x00 is never listed. -/
def memInsert (a : Nat) (v : Byte) : Memory → Memory
  | [] => if v = 0x00#8 then [] else [(a, v)]
  | (b, w) :: rest =>
    if a < b then (if v = 0x00#8 then (b, w) :: rest else (a, v) :: (b, w) :: rest)
    else if a = b then (if v = 0x00#8 then rest else (a, v) :: rest)
    else (b, w) :: memInsert a v rest

/-- What the buffer holds at an index; index 0 is hardwired to 0x00 (spec/10_state.md R22). -/
def byteAt (a : Nat) (s : State) : Byte := if a = 0 then 0x00#8 else memLookup a s.values

/-- `MemRead(idx, 1)` (R53). An index beyond CAPACITY is not mapped (R51) and faults. -/
def memRead (idx : Nat) (s : State) : Except Fault Byte :=
  if idx ≤ Config.capacity then .ok (byteAt idx s) else .error (.unmappedIndex idx)

/-- `MemWrite(idx, 1, v)` (R53): a write to index 0 does nothing. An index beyond CAPACITY is not mapped and faults. -/
def memWrite (idx : Nat) (v : Byte) (s : State) : Except Fault State :=
  if idx = 0 then .ok s
  else if idx ≤ Config.capacity then .ok (setValues (memInsert idx v s.values) s)
  else .error (.unmappedIndex idx)

/-- Go on with what a buffer access gives, or stop with its fault. -/
def orFault {α : Type} (r : Except Fault α) (k : α → Result) : Result :=
  match r with
  | .ok a => k a
  | .error f => .fault f

/-- INIT's zero-fill of every entry (spec/40_host_commands.md R101): in the canonical form, nothing is listed. -/
def zeroFill (s : State) : State := setValues [] s

/-- WRITE's compare-and-raise: `if c > S.activeCount then S.activeCount <- c` (R104). -/
def raiseCount (c : Nat) (s : State) : State :=
  if s.activeCount.toNat < c then setActiveCount (BitVec.ofNat 10 c) s else s

/-! ## Marks (spec/60_exceptions.md R206 to R208) -/

/-- The code of a fault (R206). -/
def faultCode : FaultRecord → FaultCode
  | .lineCorrupt _ => .lineCorrupt
  | .overrun _ => .overrun
  | .sendDisabled _ => .sendDisabled

/-- The number of a fault code (R206). -/
def faultNumber : FaultCode → Nat
  | .lineCorrupt => 1
  | .overrun => 2
  | .sendDisabled => 3

/-- The number of a refusal reason (R208). -/
def refusalNumber : RefusalReason → Nat
  | .reservedOpcode => 1
  | .nonzeroReservedBits => 2
  | .rawIndexRange => 3
  | .initWhileActive => 4

/-- Adding a code to the fault set, kept in rising order with no repeats. -/
def insertFault (c : FaultCode) : List FaultCode → List FaultCode
  | [] => [c]
  | d :: ds =>
    if faultNumber c < faultNumber d then c :: d :: ds
    else if c = d then d :: ds
    else d :: insertFault c ds

/-- `raise Fault(kind)`: sticky, with its recorded information (R206, R207). -/
def raiseFault (f : FaultRecord) (s : State) : State :=
  { s with faults := insertFault (faultCode f) s.faults, faultRecords := s.faultRecords ++ [f] }

/-- `refuse(r)`: sets the sticky mark, records the reason, changes nothing else (R208). -/
def refuse (r : RefusalReason) (s : State) : State :=
  { s with refused := true, refusals := s.refusals ++ [r] }

/-! ## The four link actions (spec/42_link_interface.md R172 to R176) -/

/-- Adding an entry to the wire trace. -/
def traceAppend (e : TraceEntry) (l : Link) : Link := { l with trace := l.trace ++ [e] }

/-- `LinkEnable(e)` (R172). -/
def linkEnable (e : Bool) (s : State) : State := setLink { s.link with en := e } s

/-- `LinkConfigure(m)`: a busy link's line is corrupted (R173); the mode is set in either case. -/
def linkConfigure (m : WireMode) (s : State) : State :=
  if linkIdle s.link then setLink { s.link with mode := some m } s
  else raiseFault (.lineCorrupt m) (setLink { traceAppend .corrupt s.link with mode := some m } s)

/-- A byte the link takes: into the shift register if that is empty, else into the holding register; `L.txc` is cleared (R175). -/
def acceptByte (b : Byte) (l : Link) : Link :=
  match l.shift with
  | none => { l with shift := some b, txc := false }
  | some _ => { l with hold := some b, txc := false }

/-- `LinkSend(b)`: discarded with a fault on a disabled link or a full holding register (R175). -/
def linkSend (b : Byte) (s : State) : State :=
  if !s.link.en then raiseFault (.sendDisabled b) s
  else if s.link.hold.isSome then raiseFault (.overrun b) s
  else setLink (acceptByte b s.link) s

/-- `LinkSelect(t)` (R176). -/
def linkSelect (t : Trigger) (s : State) : State := setTrigger t s

/-! ## The two link steps -/

/-- Where a link step shows something on the wire: the entry `e`, or after any fault a free entry, since "what they show of
the wire is not constrained" (spec/60_exceptions.md R207). Log entry 3. -/
def showOnWire (e : TraceEntry) (s : State) : State :=
  if faultFree s then setLink (traceAppend e s.link) s
  else setFreeCount (s.freeCount + 1) (setLink (traceAppend (Config.freeEntry s.freeCount) s.link) s)

/-- The registers after the byte in the shift register has left: the held byte starts at once, or the link is idle and the
completion is pending (R177). -/
def shiftOut (l : Link) : Link :=
  match l.hold with
  | some h => { l with shift := some h, hold := none }
  | none => { l with shift := none, txc := true }

/-- The registers after an abandon: both empty (R181). -/
def dropBytes (l : Link) : Link := { l with shift := none, hold := none }

/-- The completion step `@L` (R177); a link that shifts nothing has none, and nothing changes. -/
def completionStep (s : State) : State :=
  match s.link.shift with
  | some b =>
    let t := showOnWire (.sent s.link.mode b) s
    setLink (shiftOut t.link) t
  | none => s

/-- The abandon step `@CUT`, enabled on a disabled link that shifts a byte (R181); otherwise nothing changes. -/
def abandonStep (s : State) : State :=
  if !s.link.en && s.link.shift.isSome then
    let t := showOnWire .cut s
    setLink (dropBytes t.link) t
  else s

/-! ## Taking an interrupt and returning from it (spec/60_exceptions.md R210, R211) -/

/-- Handler entry: nothing is saved; "the only state changed by entry is `L.txc <- 0` for `TC`" (R210, R180). -/
def enterHandler : Notification → State → State
  | .sr, s => s
  | .tc, s => setLink { s.link with txc := false } s

/-- Handler return: "Nothing is restored" (R211). -/
def leaveHandler (s : State) : State := s

end Sys2Proof.Machine
end

