-- ==== Sys2Proof/Machine/Handlers.lean ====
section
/-! DEFINITION. The two notification handlers, the protocol framer (spec/41_event_handlers.md). A meaning is the handler as
the pure function of its event and the state (R12, R143, R148). Delivery is the step's part (Machine/Fetch.lean, log entry 1):
that the delivery word says so, and the clearing of `L.txc` before a TC handler runs (R140, R180). -/

namespace Sys2Proof.Machine

/-- The cursor stands at a data byte to send: `Data(i)` with `1 <= i <= snap` (R141). -/
def sending (s : State) : Bool :=
  decide (s.phase = .data) && decide (1 ≤ s.index.toNat) && decide (s.index.toNat ≤ s.snap.toNat)

/-- The cursor stands in the drain wait: `Data(snap + 1)` (spec/10_state.md R25). -/
def draining (s : State) : Bool :=
  decide (s.phase = .data) && decide (s.index.toNat = s.snap.toNat + 1)

/-- After the byte is sent: the cursor advances, and past the snapshot the trigger switches to TC (R142). -/
def advanceCursor (s : State) : State :=
  let t := setData (s.index + 1) s
  if s.snap.toNat < s.index.toNat + 1 then linkSelect .tc t else t

/-- SR in `Data(i)`, `1 <= i <= snap`: send the next data byte (R142). -/
def sendChannel (s : State) : Result :=
  orFault (memRead s.index.toNat s) fun b => .next (leaveHandler (advanceCursor (linkSend b s)))

/-- SR (R141); in any other phase it has no effect (R143). -/
def execSr (s : State) : Result :=
  if sending s then sendChannel s else .next s

/-- TC in `Break`: data mode, the cycle's one snapshot, the start code (R145). -/
def sendStartCode (s : State) : State :=
  setPhase .startCode (linkSend Config.startCode (setSnap s.activeCount (linkConfigure .dat s)))

/-- TC in `StartCode`: begin the data sequence (R146). -/
def beginData (s : State) : State := linkSelect .sr (setData 1#10 s)

/-- TC in `Data(snap + 1)`: break mode, the next break byte (R147). -/
def sendBreak (s : State) : State :=
  setPhase .brk (linkSend Config.breakByte (linkConfigure .brk s))

/-- TC (R144); in any other phase it has no effect (R148). `L.txc` was cleared by the delivery (R144, log entry 2). -/
def execTc (s : State) : Result :=
  match s.phase with
  | .brk => .next (leaveHandler (sendStartCode s))
  | .startCode => .next (leaveHandler (beginData s))
  | .data => if draining s then .next (leaveHandler (sendBreak s)) else .next s
  | .idle => .next s

end Sys2Proof.Machine
end

