-- ==== Sys2Proof/Machine/HostCommands.lean ====
section
/-! DEFINITION. The meanings of the seven host commands (spec/40_host_commands.md). -/

namespace Sys2Proof.Machine

/-- INIT's effect once the link is idle (R101). -/
def startCycle (s : State) : State :=
  let s1 := setActiveCount (BitVec.ofNat 10 Config.defaultCount) (zeroFill s)
  let s2 := linkSelect .tc (linkConfigure .brk (linkEnable true s1))
  setPhase .brk (linkSend Config.breakByte s2)

/-- INIT cannot be performed now: after TERM the link still holds bytes (R102). -/
def initHeld (s : State) : Bool := decide (s.phase = .idle) && !linkIdle s.link

/-- INIT (R101): refused while active (R103), held while the link is busy (R102: nothing happens and the command stays
pending, log entry 10), else performed. -/
def execInit (s : State) : Result :=
  if s.phase ≠ .idle then .next (refuse .initWhileActive s)
  else if initHeld s then .next s
  else .next (startCycle s)

/-- WRITE ch, v (R104). -/
def execWrite (ch v : Int) (s : State) : Result :=
  orFault (memWrite (clampChannel ch) (clampLevel v) s) fun t => .next (raiseCount (clampChannel ch) t)

/-- READ ch (R106). -/
def execRead (ch : Int) (s : State) : Result :=
  orFault (memRead (clampChannel ch) s) fun b => .next (setRdata b s)

/-- SETCOUNT n (R107). -/
def execSetcount (n : Int) (s : State) : Result :=
  .next (setActiveCount (BitVec.ofNat 10 (clampChannel n)) s)

/-- BUFRD idx (R108); an index beyond CAPACITY is refused (R77, R208). -/
def execBufrd (idx : Nat) (s : State) : Result :=
  if mapped idx then orFault (memRead idx s) fun b => .next (setRdata b s)
  else .next (refuse .rawIndexRange s)

/-- BUFWR idx, d (R109); an index beyond CAPACITY is refused (R77, R208). -/
def execBufwr (idx : Nat) (d : Byte) (s : State) : Result :=
  if mapped idx then orFault (memWrite idx d s) fun t => .next t
  else .next (refuse .rawIndexRange s)

/-- TERM's effect on a running cycle (R110). -/
def stopCycle (s : State) : State := setPhase .idle (linkEnable false (linkSelect .none s))

/-- TERM (R110): no effect in `Idle`. -/
def execTerm (s : State) : Result :=
  if s.phase = .idle then .next s else .next (stopCycle s)

end Sys2Proof.Machine
end

