-- ==== Sys2Proof/Machine/LinkActions.lean ====
section
/-! DEFINITION. The meanings of the four link actions as instructions of their own (spec/42_link_interface.md R172 to R176,
spec/95_test_vectors.md V10). The core issues the same operations inside its steps. -/

namespace Sys2Proof.Machine

/-- LinkEnable(e) (R172). -/
def execLinkEnable (e : Bool) (s : State) : Result := .next (linkEnable e s)

/-- LinkConfigure(m) (R173). -/
def execLinkConfigure (m : WireMode) (s : State) : Result := .next (linkConfigure m s)

/-- LinkSend(b) (R175). -/
def execLinkSend (b : Byte) (s : State) : Result := .next (linkSend b s)

/-- LinkSelect(t) (R176). -/
def execLinkSelect (t : Trigger) (s : State) : Result := .next (linkSelect t s)

end Sys2Proof.Machine
end

