-- ==== Sys2Proof/Machine/Dispatch.lean ====
section
/-! DEFINITION. The dispatch: one meaning per row of spec/opcode_table.json. -/

namespace Sys2Proof.Machine

def exec (i : Instr) (s : State) : Host.Outcome State Fault Refusal :=
  match i with
  -- spec/40_host_commands.md
  | .init => Sys2Proof.Machine.execInit s
  | .write ch v => Sys2Proof.Machine.execWrite ch v s
  | .read ch => Sys2Proof.Machine.execRead ch s
  | .setcount n => Sys2Proof.Machine.execSetcount n s
  | .bufrd idx => Sys2Proof.Machine.execBufrd idx s
  | .bufwr idx d => Sys2Proof.Machine.execBufwr idx d s
  | .term => Sys2Proof.Machine.execTerm s
  -- spec/41_event_handlers.md
  | .sr => Sys2Proof.Machine.execSr s
  | .tc => Sys2Proof.Machine.execTc s
  -- spec/42_link_interface.md
  | .linkEnable e => Sys2Proof.Machine.execLinkEnable e s
  | .linkConfigure m => Sys2Proof.Machine.execLinkConfigure m s
  | .linkSend b => Sys2Proof.Machine.execLinkSend b s
  | .linkSelect t => Sys2Proof.Machine.execLinkSelect t s

end Sys2Proof.Machine
end

