-- ==== Sys2Proof/Machine/Fetch.lean ====
section
/-! DEFINITION. Which agent moves, and what it brings to be performed (spec/20_memory.md R58, spec/60_exceptions.md R212). A
slot whose agent has no enabled step changes nothing but the schedule (log entry 4). -/

namespace Sys2Proof.Machine

/-- What a slot brings. -/
inductive Fetched where
  /-- An instruction to perform, and the state it finds. -/
  | run (i : Instr) (s : State)
  /-- A step that is no instruction (a link step, a refused word, a slot that is not enabled), and the state it leaves. -/
  | done (s : State)
  /-- A word the spec gives no meaning. -/
  | stop (r : Refusal)

/-- The slot that is due, and the state with it taken: the schedule's head, or a free slot (log entry 5). -/
def nextSlot (s : State) : Slot × State :=
  match s.schedule with
  | q :: rest => (q, setSchedule rest s)
  | [] => (Config.freeSlot s.freeCount, setFreeCount (s.freeCount + 1) s)

/-- A command the port keeps at its head: a held INIT (spec/40_host_commands.md R102, R111). -/
def held (i : Instr) (s : State) : Bool :=
  match i with
  | .init => initHeld s
  | .write _ _ => false
  | .read _ => false
  | .setcount _ => false
  | .bufrd _ => false
  | .bufwr _ _ => false
  | .term => false
  | .sr => false
  | .tc => false
  | .linkEnable _ => false
  | .linkConfigure _ => false
  | .linkSend _ => false
  | .linkSelect _ => false

/-- The host step (R100): the word at the port's head is refused, held, or performed; only a held one stays. -/
def hostFetch (s : State) : Fetched :=
  match s.port with
  | [] => .done s
  | w :: rest =>
    match decodeCommand w with
    | .instr i => if held i s then .done s else .run i (setPort rest s)
    | .refused r => .done (refuse r (setPort rest s))
    | .notDelivered => .done s
    | .undefinedAction => .done s

/-- What the delivery of a notification does before its handler runs: handler entry, which for TC clears `L.txc` whatever the
phase (spec/42_link_interface.md R180, spec/60_exceptions.md R210). -/
def deliver (i : Instr) (s : State) : State :=
  match i with
  | .init => s
  | .write _ _ => s
  | .read _ => s
  | .setcount _ => s
  | .bufrd _ => s
  | .bufwr _ _ => s
  | .term => s
  | .sr => enterHandler .sr s
  | .tc => enterHandler .tc s
  | .linkEnable _ => s
  | .linkConfigure _ => s
  | .linkSend _ => s
  | .linkSelect _ => s

/-- The core's step (R140, R202): the notification the delivery word delivers, if any, is delivered and its handler runs. -/
def coreFetch (s : State) : Fetched :=
  match decodeDelivery (deliveryWord s) with
  | .instr i => .run i (deliver i s)
  | .refused _ => .done s
  | .notDelivered => .done s
  | .undefinedAction => .done s

/-- The outside driver's step: the action word at the port's head (spec/30_encoding.md R80, log entry 7). -/
def actionFetch (s : State) : Fetched :=
  match s.actionPort with
  | [] => .done s
  | a :: rest =>
    match decodeAction a with
    | .instr i => .run i (setActionPort rest s)
    | .refused _ => .stop (.undefinedActionWord a)
    | .notDelivered => .stop (.undefinedActionWord a)
    | .undefinedAction => .stop (.undefinedActionWord a)

/-- What a slot's agent brings. -/
def slotFetch (q : Slot) (s : State) : Fetched :=
  match q with
  | .host => hostFetch s
  | .core => coreFetch s
  | .complete => .done (completionStep s)
  | .abandon => .done (abandonStep s)
  | .action => actionFetch s

/-- What the step performs. -/
def fetch (s : State) : Fetched := slotFetch (nextSlot s).1 (nextSlot s).2

/-- Link registers whose request lines are those of a delivery word; `tcq` high leaves `srq` high too, since an idle link has
an empty holding register (R79, R178, R179; log entry 11). -/
def linesOf (w : DeliveryWord) (l : Link) : Link :=
  if w.getLsbD 1 then { l with en := true, hold := none, shift := none, txc := true }
  else if w.getLsbD 0 then { l with en := true, hold := none, txc := false }
  else { l with en := false }

/-- A word placed where its port's next step finds it. -/
def placeWord (p : PortWord) (s : State) : State :=
  match p with
  | .command w => setPort (w :: s.port) (setSchedule (.host :: s.schedule) s)
  | .action a => setActionPort (a :: s.actionPort) (setSchedule (.action :: s.schedule) s)
  | .delivery w =>
    setTrigger ((triggerOfCode (w.extractLsb' 2 2)).getD .none)
      (setLink (linesOf w s.link) (setSchedule (.core :: s.schedule) s))

/-- A table word of `nbits` bits placed where the next step runs it. -/
def placeTableWord (nbits w : Nat) (s : State) : State :=
  if nbits ≤ 8 then placeWord (.delivery (BitVec.ofNat 4 w)) s
  else if nbits ≤ 16 then placeWord (.action (BitVec.ofNat 11 w)) s
  else placeWord (.command (BitVec.ofNat 32 w)) s

end Sys2Proof.Machine
end

