-- ==== Sys2Proof/Machine/Step.lean ====
section
/-! DEFINITION. One atomic step of the block (spec/20_memory.md R58). -/

namespace Sys2Proof.Machine

/-- The agent that is due moves: its instruction is performed, or its step that is no instruction is taken. -/
def step (s : State) : Host.Outcome State Fault Refusal :=
  match fetch s with
  | .run i t => exec i t
  | .done t => .next t
  | .stop r => .refused r

/-- `s` with a table word placed where the next step runs it: a command word at the head of the command port, an action word
at the head of the action port, a delivery word as the trigger and the request lines that make it; its agent is due next. -/
def State.withFetchWord (s : State) (nbits w : Nat) : State := placeTableWord nbits w s

end Sys2Proof.Machine
end

