-- ==== Sys2Proof/Machine/Runs.lean ====
section
/-! DEFINITION. The runs of the block (spec/20_memory.md R58): the outside world picks the agent that moves next and puts new
command words on the port, and the run is weakly fair (spec/60_exceptions.md R212). A single step cannot show fairness; a claim
about what happens in the end takes a `FairRun` (log entry 5). -/

namespace Sys2Proof.Machine

/-- The agent of a slot has a step to take: the host a command that is not held (R100, R209), the core a deliverable
notification (R202), the link a byte to complete (R177) or, disabled, to abandon (R181), an outside driver an action. -/
def enabled (q : Slot) (s : State) : Bool :=
  match q with
  | .host =>
    match s.port with
    | [] => false
    | w :: _ =>
      match decodeCommand w with
      | .instr i => !held i s
      | .refused _ => true
      | .notDelivered => false
      | .undefinedAction => false
  | .core =>
    match decodeDelivery (deliveryWord s) with
    | .instr _ => true
    | .refused _ => false
    | .notDelivered => false
    | .undefinedAction => false
  | .complete => s.link.shift.isSome
  | .abandon => !s.link.en && s.link.shift.isSome
  | .action => !s.actionPort.isEmpty

/-- The outside world's part of one step: new command words on the port, and the agent that moves. -/
def offer (q : Slot) (ws : List CommandWord) (s : State) : State := setPort (s.port ++ ws) (setSchedule [q] s)

/-- A run: one step after another, the `n`-th taken by the agent `due n` with the words `issued n` new on the port. -/
def IsRun (states : Nat → State) (due : Nat → Slot) (issued : Nat → List CommandWord) : Prop :=
  ∀ n, step (offer (due n) (issued n) (states n)) = .next (states (n + 1))

/-- "A step that stays enabled is eventually taken" (R212). -/
def WeaklyFair (states : Nat → State) (due : Nat → Slot) : Prop :=
  ∀ (q : Slot) (n : Nat), (∀ m, n ≤ m → enabled q (states m) = true) → ∃ m, n ≤ m ∧ due m = q

/-- The runs the spec admits: "Every run the model admits is weakly fair" (R212). -/
def FairRun (states : Nat → State) (due : Nat → Slot) (issued : Nat → List CommandWord) : Prop :=
  IsRun states due issued ∧ WeaklyFair states due

end Sys2Proof.Machine
end

