-- ==== Sys2Proof/Safety.lean ====
section
/-! DEFINITION. The terms claims are stated in: a run nothing has marked, what the block has handed to the wire, and the
invariants of spec/10_state.md R32. -/

namespace Sys2Proof.Safety

open Sys2Proof.Machine

/-- The must-be-zero bits of each opcode's format (spec/30_encoding.md R76). -/
def mustBeZero (op : Nat) : CommandWord :=
  match op with
  | 1 => 0x0FFFFFFF#32
  | 3 => 0x0000FFFF#32
  | 4 => 0x0000FFFF#32
  | 5 => 0x0000FFFF#32
  | 6 => 0x0000FF00#32
  | 7 => 0x0FFFFFFF#32
  | _ => 0#32

/-- `k` steps, stopping at the first fault or refusal, as the host's own run does. -/
def runSteps : Nat → State → Result
  | 0, s => .next s
  | k + 1, s =>
    match step s with
    | .next t => runSteps k t
    | .fault r => .fault r
    | .refused r => .refused r

/-- No fault and no refusal is recorded: the premise of every claim (spec/60_exceptions.md R207, R208). -/
abbrev Clean (s : State) : Prop := s.faults = [] ∧ s.refused = false

/-- The bytes the link still holds, in the order they go out, each in the mode in force. -/
def inFlight (s : State) : List TraceEntry :=
  (s.link.shift.toList ++ s.link.hold.toList).map (TraceEntry.sent s.link.mode)

/-- The wire trace with the bytes still in flight added: everything handed to the link so far. -/
def wire (s : State) : List TraceEntry := s.link.trace ++ inFlight s

/-- What may be read off the trace: nothing once it holds `Corrupt` (spec/42_link_interface.md R174). -/
def readableTrace (s : State) : Option (List TraceEntry) :=
  if s.link.trace.contains .corrupt then none else some s.link.trace

/-- The eight points of spec/10_state.md R32, in its order. -/
abbrev CursorInv (s : State) : Prop :=
  (s.phase = .idle ↔ s.trigger = .none) ∧
  (s.phase = .brk ∨ s.phase = .startCode → s.trigger = .tc) ∧
  (s.phase = .data → s.index.toNat ≤ s.snap.toNat → s.trigger = .sr) ∧
  (s.phase = .data → s.index.toNat = s.snap.toNat + 1 → s.trigger = .tc) ∧
  (s.phase = .data → 1 ≤ s.index.toNat ∧ s.index.toNat ≤ s.snap.toNat + 1 ∧
    1 ≤ s.snap.toNat ∧ s.snap.toNat ≤ Config.capacity) ∧
  (1 ≤ s.activeCount.toNat ∧ s.activeCount.toNat ≤ Config.capacity) ∧
  byteAt 0 s = 0x00#8 ∧
  (s.phase ≠ .idle → s.link.en = true)

/-- What makes R32 inductive: the holding register fills only behind a shifting byte (R171), the mode follows the phase, a
byte or its completion is on its way wherever TC is awaited (R152), the count to come is legal, and the link is off in `Idle`. -/
abbrev LinkInv (s : State) : Prop :=
  (s.link.hold ≠ none → s.link.shift ≠ none) ∧
  (s.phase = .brk → s.link.mode = some .brk) ∧
  (s.phase = .startCode ∨ s.phase = .data → s.link.mode = some .dat) ∧
  (s.phase = .brk ∨ s.phase = .startCode → s.link.hold = none) ∧
  (s.phase ≠ .idle → s.trigger = .tc → s.link.shift ≠ none ∨ s.link.txc = true) ∧
  (s.phase = .startCode → 1 ≤ s.snap.toNat ∧ s.snap.toNat ≤ Config.capacity) ∧
  (s.phase = .idle → s.link.en = false)

/-- The invariant of the block when only its three agents act (nothing waits on the action port): R32, what it rests on, a
canonical buffer, and no fault recorded. -/
abbrev BlockInv (s : State) : Prop :=
  CursorInv s ∧ LinkInv s ∧ Memory.wf s.values = true ∧ s.faults = [] ∧ s.actionPort = []

/-- One break byte, then the start code, then `n` data bytes: the wire as far as a cycle has come
(spec/41_event_handlers.md R150). -/
def cycleSoFar (ds : List Byte) : List TraceEntry :=
  TraceEntry.sent (some .brk) Config.breakByte :: TraceEntry.sent (some .dat) Config.startCode ::
    ds.map (TraceEntry.sent (some .dat))

/-- What the phase says of the wire: it ends with as much of one cycle as the cursor has handed over (R150). -/
def FrameInv (s : State) : Prop :=
  match s.phase with
  | .idle => True
  | .brk => ∃ before, wire s = before ++ [TraceEntry.sent (some .brk) Config.breakByte]
  | .startCode => ∃ before, wire s = before ++ cycleSoFar []
  | .data => ∃ before ds, ds.length + 1 = s.index.toNat ∧ wire s = before ++ cycleSoFar ds

end Sys2Proof.Safety
end

