-- ==== Sys2Proof/Certificates/Slice0/Obligations.lean ====
section
/-! DEFINITION. The statements for the provers. Each docstring names the spec's rule it rests on. -/

open Sys2Proof Sys2Proof.Machine Sys2Proof.Safety

/-! ## Encoding (spec/30_encoding.md) -/

/-- The encoder and the decoder agree on every instruction that has an encoding (R70 to R80). -/
def Obligations.DecodeOfEncodeIsTheInstruction : Prop :=
  ∀ i : Instr, i.wf = true → decode (encode i) = .instr i

/-- Every command word that is not refused is the one word of a well-formed instruction (R78, R83). -/
def Obligations.AcceptedCommandWordEncodesBack : Prop :=
  ∀ (w : CommandWord) (i : Instr), decodeCommand w = .instr i → i.wf = true ∧ encode i = .command w

/-- The action words of R80's table, each with its payload, and no others. -/
def Obligations.ActionWordsAreThoseOfTheTable : Prop :=
  ∀ (a : ActionWord) (i : Instr), decodeAction a = .instr i ↔
    (∃ e : Bool, i = .linkEnable e ∧ a.toNat = 0x100 + e.toNat) ∨
    (i = .linkConfigure .brk ∧ a.toNat = 0x201) ∨
    (i = .linkConfigure .dat ∧ a.toNat = 0x202) ∨
    (∃ b : Byte, i = .linkSend b ∧ a.toNat = 0x300 + b.toNat) ∨
    (i = .linkSelect .none ∧ a.toNat = 0x400) ∨
    (i = .linkSelect .sr ∧ a.toNat = 0x401) ∨
    (i = .linkSelect .tc ∧ a.toNat = 0x402)

/-- R75: a reserved opcode, and only that, is refused with `REF_RESERVED_OPCODE`, and the host step on such a word changes
nothing but the refusal mark (the word leaves the port and the slot is used). -/
def Obligations.ReservedOpcodesAreRefused : Prop :=
  ∀ w : CommandWord,
    ((w.toNat / 2 ^ 28 = 0 ∨ 8 ≤ w.toNat / 2 ^ 28) ↔ decodeCommand w = .refused .reservedOpcode) ∧
    ∀ (s : State) (q : List Slot) (ws : List CommandWord), (w.toNat / 2 ^ 28 = 0 ∨ 8 ≤ w.toNat / 2 ^ 28) →
      s.schedule = .host :: q → s.port = w :: ws →
      step s = .next { s with
        schedule := q, port := ws, refused := true, refusals := s.refusals ++ [.reservedOpcode] }

/-- R76: a one in a must-be-zero bit, and only that, is refused with `REF_NONZERO_RESERVED_BITS` (whatever the raw index is), and
the host step on such a word changes nothing but the refusal mark. -/
def Obligations.NonzeroReservedBitsAreRefused : Prop :=
  ∀ w : CommandWord,
    (w &&& mustBeZero (w.toNat / 2 ^ 28) ≠ 0#32 ↔ decodeCommand w = .refused .nonzeroReservedBits) ∧
    ∀ (s : State) (q : List Slot) (ws : List CommandWord), w &&& mustBeZero (w.toNat / 2 ^ 28) ≠ 0#32 →
      s.schedule = .host :: q → s.port = w :: ws →
      step s = .next { s with
        schedule := q, port := ws, refused := true, refusals := s.refusals ++ [.nonzeroReservedBits] }

/-- R77: a BUFRD or BUFWR word with its must-be-zero bits zero and an index above CAPACITY, and no other word, is refused with
`REF_RAW_INDEX_RANGE`, and the host step on it changes nothing but the refusal mark. -/
def Obligations.RawIndexBeyondCapacityIsRefused : Prop :=
  ∀ w : CommandWord,
    (((w.toNat / 2 ^ 28 = 5 ∧ w.toNat % 2 ^ 16 = 0) ∨ (w.toNat / 2 ^ 28 = 6 ∧ w.toNat % 2 ^ 16 < 2 ^ 8)) ∧
        512 < w.toNat / 2 ^ 16 % 2 ^ 12 ↔ decodeCommand w = .refused .rawIndexRange) ∧
    ∀ (s : State) (q : List Slot) (ws : List CommandWord), decodeCommand w = .refused .rawIndexRange →
      s.schedule = .host :: q → s.port = w :: ws →
      step s = .next { s with
        schedule := q, port := ws, refused := true, refusals := s.refusals ++ [.rawIndexRange] }

/-- R84: the worked encodings, each word written out. -/
def Obligations.WorkedEncodingsDecode : Prop :=
  decodeCommand 0x10000000#32 = .instr .init ∧
  decodeCommand 0x70000000#32 = .instr .term ∧
  decodeCommand 0x2001000A#32 = .instr (.write 1 10) ∧
  decodeCommand 0x20050014#32 = .instr (.write 5 20) ∧
  decodeCommand 0x200C0063#32 = .instr (.write 12 99) ∧
  decodeCommand 0x2000012C#32 = .instr (.write 0 300) ∧
  decodeCommand 0x2FFFFFFB#32 = .instr (.write (-1) (-5)) ∧
  decodeCommand 0x22580007#32 = .instr (.write 600 7) ∧
  decodeCommand 0x27FF00FF#32 = .instr (.write 2047 255) ∧
  decodeCommand 0x28007FFF#32 = .instr (.write (-2048) 32767) ∧
  decodeCommand 0x30000000#32 = .instr (.read 0) ∧
  decodeCommand 0x32010000#32 = .instr (.read 513) ∧
  decodeCommand 0x400A0000#32 = .instr (.setcount 10) ∧
  decodeCommand 0x4FFD0000#32 = .instr (.setcount (-3)) ∧
  decodeCommand 0x43E80000#32 = .instr (.setcount 1000) ∧
  decodeCommand 0x50000000#32 = .instr (.bufrd 0) ∧
  decodeCommand 0x52000000#32 = .instr (.bufrd 512) ∧
  decodeCommand 0x60000055#32 = .instr (.bufwr 0 0x55#8) ∧
  decodeCommand 0x620000AB#32 = .instr (.bufwr 512 0xAB#8) ∧
  decodeCommand 0x00000000#32 = .refused .reservedOpcode ∧
  decodeCommand 0x80000000#32 = .refused .reservedOpcode ∧
  decodeCommand 0x10000001#32 = .refused .nonzeroReservedBits ∧
  decodeCommand 0x30010001#32 = .refused .nonzeroReservedBits ∧
  decodeCommand 0x62010000#32 = .refused .rawIndexRange ∧ indexA 0x62010000#32 = 513 ∧
  decodeCommand 0x62010100#32 = .refused .nonzeroReservedBits

/-- A byte-wide bus carries a command word least significant byte first (spec/20_memory.md R54). -/
def Obligations.CommandBytesGoLeastSignificantFirst : Prop :=
  ∀ (b0 b1 b2 b3 : Byte) (rest : List Byte) (w : CommandWord),
    w.toNat = b0.toNat + 2 ^ 8 * b1.toNat + 2 ^ 16 * b2.toNat + 2 ^ 24 * b3.toNat →
    bytesOfCommand w = [b0, b1, b2, b3] ∧
      decodeBytes (b0 :: b1 :: b2 :: b3 :: rest) = some (decodeCommand w, rest)

/-! ## The step (spec/20_memory.md R58, spec/40_host_commands.md R100, spec/41_event_handlers.md R140) -/

/-- A host step runs the command at the head of the port, with the port and the schedule moved on, unless it is an INIT that
is held (R100, R102). -/
def Obligations.HostStepRunsTheDecodedCommand : Prop :=
  ∀ (s : State) (q : List Slot) (w : CommandWord) (ws : List CommandWord) (i : Instr),
    s.schedule = .host :: q → s.port = w :: ws → decodeCommand w = .instr i →
    (i = .init → s.phase = .idle → s.link.shift = none ∧ s.link.hold = none) →
    step s = exec i { s with schedule := q, port := ws }

/-- R102, R111: an INIT held by a busy link in `Idle` stays at the head of the port and nothing else happens; that `exec` answers
the state unchanged is the model's choice (log entry 10). -/
def Obligations.HeldInitStaysAtThePort : Prop :=
  ∀ (s : State) (q : List Slot) (ws : List CommandWord),
    s.schedule = .host :: q → s.port = 0x10000000#32 :: ws → s.phase = .idle →
    (s.link.shift ≠ none ∨ s.link.hold ≠ none) →
    step s = .next { s with schedule := q } ∧ exec .init s = .next s

/-- R140, R180, R202, R203: the core's step runs exactly the handler whose source the trigger selects and whose request line is
high, in any phase, with `L.txc` cleared before the TC handler runs (that a delivered TC clears it in every phase is DEDUCED, log entry
2; the split into delivery and `exec` is log entry 1); with neither, nothing happens (log entry 4) and a pending request stays pending. -/
def Obligations.CoreStepRunsTheSelectedHandler : Prop :=
  ∀ (s : State) (q : List Slot), s.schedule = .core :: q →
    (s.trigger = .sr → s.link.en = true → s.link.hold = none →
      step s = exec .sr { s with schedule := q }) ∧
    (s.trigger = .tc → s.link.en = true → s.link.txc = true → s.link.shift = none → s.link.hold = none →
      step s = exec .tc { s with schedule := q, link := { s.link with txc := false } }) ∧
    (¬ (s.trigger = .sr ∧ s.link.en = true ∧ s.link.hold = none) →
      ¬ (s.trigger = .tc ∧ s.link.en = true ∧ s.link.txc = true ∧ s.link.shift = none ∧ s.link.hold = none) →
      step s = .next { s with schedule := q })

/-- The step on an action word put on the action port from outside runs the action; a word that R80 does not list stops the
step by name. The action port and this stop are the model's choice (log entries 7 and 18). -/
def Obligations.ActionStepRunsTheDecodedAction : Prop :=
  ∀ (s : State) (q : List Slot) (a : ActionWord) (rest : List ActionWord),
    s.schedule = .action :: q → s.actionPort = a :: rest →
    (∀ i, decodeAction a = .instr i → step s = exec i { s with schedule := q, actionPort := rest }) ∧
    (decodeAction a = .undefinedAction → step s = .refused (.undefinedActionWord a))

/-- With no slot scheduled, the step is that of one free slot (the model's choice, log entry 5, for R212's "Any one of them
may be taken next"): what holds of every schedule holds of it, whatever the free value is. -/
def Obligations.EmptyScheduleTakesSomeSlot : Prop :=
  ∀ s : State, s.schedule = [] →
    ∃ q : Slot, step s = step { s with schedule := [q], freeCount := s.freeCount + 1 }

/-- R177: the completion step, enabled whether the link is enabled or not. -/
def Obligations.CompletionStepShiftsOneByteOut : Prop :=
  ∀ (s : State) (q : List Slot), s.schedule = .complete :: q → s.faults = [] →
    (∀ b h, s.link.shift = some b → s.link.hold = some h →
      step s = .next { s with schedule := q, link := { s.link with
        trace := s.link.trace ++ [.sent s.link.mode b], shift := some h, hold := none } }) ∧
    (∀ b, s.link.shift = some b → s.link.hold = none →
      step s = .next { s with schedule := q, link := { s.link with
        trace := s.link.trace ++ [.sent s.link.mode b], shift := none, txc := true } })

/-- R181: the abandon step on a disabled link that shifts a byte. -/
def Obligations.AbandonStepEmptiesADisabledLink : Prop :=
  ∀ (s : State) (q : List Slot), s.schedule = .abandon :: q → s.faults = [] →
    s.link.en = false → s.link.shift ≠ none →
    step s = .next { s with schedule := q, link := { s.link with
      trace := s.link.trace ++ [.cut], shift := none, hold := none } }

/-- A slot whose agent has no enabled step only leaves the schedule (the model's choice, log entry 4): an abandon on an enabled
link or with nothing shifting (R181), a completion with nothing shifting (R177), a host or an outside driver with nothing to issue. -/
def Obligations.ASlotThatIsNotEnabledChangesNothing : Prop :=
  ∀ (s : State) (a : Slot) (q : List Slot), s.schedule = a :: q →
    (a = .complete ∧ s.link.shift = none) ∨ (a = .abandon ∧ (s.link.en = true ∨ s.link.shift = none)) ∨
      (a = .host ∧ s.port = []) ∨ (a = .action ∧ s.actionPort = []) →
    step s = .next { s with schedule := q }

/-! ## Host commands (spec/40_host_commands.md) -/

/-- WRITE (R104): the clamped value lands in the clamped channel, every other byte of the buffer reads as before, the count is
raised to a higher channel and never lowered, and nothing else changes. -/
def Obligations.WriteStoresAndRaisesTheCount : Prop :=
  ∀ (ch v : Int) (s : State), s.values.wf = true →
    (clampChannel ch : Int) = max 1 (min ch 512) ∧ ((clampLevel v).toNat : Int) = max 0 (min v 255) ∧
    ∃ t, exec (.write ch v) s = .next t ∧
      t = { s with values := t.values, activeCount := t.activeCount } ∧
      t.activeCount.toNat = max s.activeCount.toNat (clampChannel ch) ∧
      byteAt (clampChannel ch) t = clampLevel v ∧
      ∀ a, a ≠ clampChannel ch → byteAt a t = byteAt a s

/-- READ (R106): `RDATA` takes the byte of the clamped channel and nothing else changes. -/
def Obligations.ReadReturnsTheClampedChannel : Prop :=
  ∀ (ch : Int) (c : Nat) (s : State), (c : Int) = max 1 (min ch 512) →
    exec (.read ch) s = .next { s with rdata := byteAt c s }

/-- SETCOUNT (R107): the count becomes the clamped operand, up or down, and nothing else changes. -/
def Obligations.SetcountSetsTheClampedCount : Prop :=
  ∀ (n : Int) (s : State), ∃ c : Count, (c.toNat : Int) = max 1 (min n 512) ∧
    exec (.setcount n) s = .next { s with activeCount := c }

/-- BUFRD (R108): a mapped index is read unclamped, index 0 as 0x00; an index above CAPACITY is refused (R77, log
entry 13). -/
def Obligations.BufrdReadsTheRawIndex : Prop :=
  ∀ (idx : Nat) (s : State),
    (idx ≤ 512 → exec (.bufrd idx) s = .next { s with rdata := byteAt idx s }) ∧
    byteAt 0 s = 0x00#8 ∧
    (512 < idx → exec (.bufrd idx) s =
      .next { s with refused := true, refusals := s.refusals ++ [.rawIndexRange] })

/-- BUFWR (R109): a channel's byte is stored as it is, every other byte reads as before, the count is not raised; index 0 takes
no write; an index above CAPACITY is refused (R77, log entry 13). -/
def Obligations.BufwrWritesTheRawIndex : Prop :=
  ∀ (idx : Nat) (d : Byte) (s : State), s.values.wf = true →
    (idx = 0 → exec (.bufwr idx d) s = .next s) ∧
    (1 ≤ idx → idx ≤ 512 → ∃ t, exec (.bufwr idx d) s = .next t ∧ t = { s with values := t.values } ∧
      byteAt idx t = d ∧ ∀ a, a ≠ idx → byteAt a t = byteAt a s) ∧
    (512 < idx → exec (.bufwr idx d) s =
      .next { s with refused := true, refusals := s.refusals ++ [.rawIndexRange] })

/-- INIT (R101, R231) on an idle link: the buffer all zero, the count at its default, the link enabled in break mode with the
break byte shifting and no completion pending, the cursor in `Break` awaiting TC; everything else is kept (the index among it: log
entry 19). -/
def Obligations.InitStartsTheCycle : Prop :=
  ∀ s : State, s.phase = .idle → s.link.shift = none → s.link.hold = none →
    ∃ t, exec .init s = .next t ∧ (∀ a, byteAt a t = 0x00#8) ∧ t.values.wf = true ∧
      t = { s with
        values := t.values, activeCount := 32#10, phase := .brk, trigger := .tc
        link := { s.link with
          en := true, mode := some .brk, shift := some 0x00#8, hold := none, txc := false } }

/-- R101's loop: writing 0x00 to every index in turn is the zero-fill INIT performs. -/
def Obligations.ZeroFillIsTheLoopOfWrites : Prop :=
  ∀ s : State, s.values.wf = true →
    (List.range (Config.capacity + 1)).foldl (fun r k => r >>= memWrite k 0x00#8) (Except.ok s) =
      Except.ok (zeroFill s)

/-- R103: INIT while active is refused and nothing else changes. -/
def Obligations.InitWhileActiveIsRefused : Prop :=
  ∀ s : State, s.phase ≠ .idle →
    exec .init s = .next { s with refused := true, refusals := s.refusals ++ [.initWhileActive] }

/-- TERM (R110): no trigger, the link disabled with what it holds, `Idle`, everything else kept (the index among
it: the model's choice, log entry 19); in `Idle` no effect. -/
def Obligations.TermStopsTheCycle : Prop :=
  ∀ s : State,
    (s.phase ≠ .idle → exec .term s =
      .next { s with phase := .idle, trigger := .none, link := { s.link with en := false } }) ∧
    (s.phase = .idle → exec .term s = .next s)

/-! ## Notification handlers (spec/41_event_handlers.md) -/

/-- SR in `Data(i)`, `1 <= i <= snap` (R142): channel `i` is handed to the link, the cursor advances, the last byte switches the
trigger to TC; nothing else changes. -/
def Obligations.SrSendsTheNextChannel : Prop :=
  ∀ s : State, s.phase = .data → 1 ≤ s.index.toNat → s.index.toNat ≤ s.snap.toNat → s.snap.toNat ≤ 512 →
    s.link.en = true → s.link.hold = none →
    ∃ i : Count, i.toNat = s.index.toNat + 1 ∧
      exec .sr s = .next { s with
        index := i
        trigger := if s.index.toNat = s.snap.toNat then .tc else s.trigger
        link := { s.link with
          shift := if s.link.shift = none then some (byteAt s.index.toNat s) else s.link.shift
          hold := if s.link.shift = none then none else some (byteAt s.index.toNat s)
          txc := false } }

/-- R143, R148: a handler handed its event in any other phase changes nothing (what the delivery of TC clears, it cleared before:
CoreStepRunsTheSelectedHandler). -/
def Obligations.HandlersHaveNoEffectElsewhere : Prop :=
  ∀ s : State,
    (¬ (s.phase = .data ∧ 1 ≤ s.index.toNat ∧ s.index.toNat ≤ s.snap.toNat) → exec .sr s = .next s) ∧
    (s.phase = .idle ∨ (s.phase = .data ∧ s.index.toNat ≠ s.snap.toNat + 1) → exec .tc s = .next s)

/-- An SR whose cursor stands beyond the buffer stops by name: the spec maps no such index (spec/20_memory.md R51, R53). No
reachable state has one. The stop is the model's choice (log entry 14). -/
def Obligations.SrStopsBeyondTheBuffer : Prop :=
  ∀ s : State, s.phase = .data → 512 < s.index.toNat → s.index.toNat ≤ s.snap.toNat →
    exec .sr s = .fault (.unmappedIndex s.index.toNat)

/-- TC in `Break` (R145): data mode, the snapshot, the start code, `StartCode`, with the completion cleared; nothing else (that
the index is kept outside `Data` is the model's choice, log entry 19). -/
def Obligations.TcInBreakSendsTheStartCode : Prop :=
  ∀ s : State, s.phase = .brk → s.link.en = true → s.link.shift = none → s.link.hold = none →
    exec .tc s = .next { s with
      phase := .startCode, snap := s.activeCount
      link := { s.link with mode := some .dat, shift := some 0x00#8, txc := false } }

/-- TC in `StartCode` (R146): `Data(1)` on SR, no byte sent; the handler writes nothing else (its delivery has cleared the
completion: CoreStepRunsTheSelectedHandler). -/
def Obligations.TcInStartCodeBeginsTheData : Prop :=
  ∀ s : State, s.phase = .startCode →
    exec .tc s = .next { s with
      phase := .data, index := 1#10, trigger := .sr }

/-- TC in `Data(snap + 1)` (R147): break mode, the next break byte, `Break`, with the completion cleared; nothing else (that the
index is kept outside `Data` is the model's choice, log entry 19). -/
def Obligations.TcAfterTheLastByteStartsTheNextBreak : Prop :=
  ∀ s : State, s.phase = .data → s.index.toNat = s.snap.toNat + 1 →
    s.link.en = true → s.link.shift = none → s.link.hold = none →
    exec .tc s = .next { s with
      phase := .brk, link := { s.link with mode := some .brk, shift := some 0x00#8, txc := false } }

/-! ## Link actions (spec/42_link_interface.md) -/

/-- LinkEnable (R172) writes `L.en` alone and LinkSelect (R176) writes `trigger` alone. -/
def Obligations.EnableAndSelectWriteOneRegister : Prop :=
  ∀ (e : Bool) (t : Trigger) (s : State),
    exec (.linkEnable e) s = .next { s with link := { s.link with en := e } } ∧
    exec (.linkSelect t) s = .next { s with trigger := t }

/-- With `L.en = 0` neither request line is high, so the core's step delivers nothing, whatever the trigger (R172, R202). -/
def Obligations.ADisabledLinkRequestsNothing : Prop :=
  ∀ (s : State) (q : List Slot), s.link.en = false → s.schedule = .core :: q →
    step s = .next { s with schedule := q }

/-- LinkConfigure (R173): the mode is set; on a busy link the line is corrupted, with the fault and the marker recorded. -/
def Obligations.ConfigureSetsTheModeOrCorrupts : Prop :=
  ∀ (m : WireMode) (s : State),
    (s.link.shift = none → s.link.hold = none →
      exec (.linkConfigure m) s = .next { s with link := { s.link with mode := some m } }) ∧
    (s.link.shift ≠ none ∨ s.link.hold ≠ none →
      ∃ t, exec (.linkConfigure m) s = .next t ∧
        t = { s with
          link := { s.link with mode := some m, trace := s.link.trace ++ [.corrupt] }
          faults := t.faults, faultRecords := s.faultRecords ++ [.lineCorrupt m] } ∧
        ∀ c, c ∈ t.faults ↔ c = .lineCorrupt ∨ c ∈ s.faults)

/-- LinkSend (R175): into the shift register if it is empty, else into the holding register, clearing `L.txc`; discarded with its
fault on a disabled link, else on a full holding register. -/
def Obligations.SendTakesOrDiscardsTheByte : Prop :=
  ∀ (b : Byte) (s : State),
    (s.link.en = true → s.link.hold = none →
      exec (.linkSend b) s = .next { s with link := { s.link with
        shift := if s.link.shift = none then some b else s.link.shift
        hold := if s.link.shift = none then none else some b
        txc := false } }) ∧
    (s.link.en = false → ∃ t, exec (.linkSend b) s = .next t ∧
      t = { s with faults := t.faults, faultRecords := s.faultRecords ++ [.sendDisabled b] } ∧
      ∀ c, c ∈ t.faults ↔ c = .sendDisabled ∨ c ∈ s.faults) ∧
    (s.link.en = true → s.link.hold ≠ none → ∃ t, exec (.linkSend b) s = .next t ∧
      t = { s with faults := t.faults, faultRecords := s.faultRecords ++ [.overrun b] } ∧
      ∀ c, c ∈ t.faults ↔ c = .overrun ∨ c ∈ s.faults)

/-! ## The machine as a whole -/

/-- What reset leaves (spec/10_state.md R35): the fields the spec gives a value. `i`, `snap`, the ports and the schedule are
left out: their values are the model's choice. -/
def Obligations.ResetLeavesTheTableOfR35 : Prop :=
  (∀ a, byteAt a State.reset = 0x00#8) ∧ State.reset.activeCount = 32#10 ∧ State.reset.phase = .idle ∧
  State.reset.trigger = .none ∧ State.reset.rdata = 0x00#8 ∧ State.reset.link.en = false ∧
  State.reset.link.mode = none ∧ State.reset.link.hold = none ∧ State.reset.link.shift = none ∧
  State.reset.link.txc = false ∧ State.reset.link.trace = [] ∧ State.reset.faults = [] ∧
  State.reset.refused = false

/-- The invariant holds after reset, and the wire shows no part of a cycle yet. -/
def Obligations.InvariantHoldsAtReset : Prop := BlockInv State.reset ∧ FrameInv State.reset

/-- R32 and what it rests on (`BlockInv`) is kept by every step of the host, the core and the link, whichever moves. -/
def Obligations.EveryStepKeepsTheInvariant : Prop :=
  ∀ s t : State, BlockInv s → step s = .next t → BlockInv t

/-- Under the invariant no step stops and none raises a fault: "any reachable state always has a defined successor"
(spec/41_event_handlers.md R152, spec/60_exceptions.md R206). -/
def Obligations.EveryReachableStateHasASuccessor : Prop :=
  ∀ s : State, BlockInv s → ∃ t, step s = .next t ∧ t.faults = [] ∧ t.faultRecords = s.faultRecords

/-- The wire always ends with exactly as much of one cycle as the cursor has handed over: break byte, start code, then `i - 1`
data bytes, nothing between them (spec/41_event_handlers.md R150), in every interleaving. -/
def Obligations.EveryStepKeepsTheFrameShape : Prop :=
  ∀ s t : State, BlockInv s → FrameInv s → step s = .next t → FrameInv t

/-- One whole cycle (R150): from `Break`, when each byte completes before the next notification is taken, the wire gains the
start code and then channels 1 to `activeCount` in rising order, and the next break byte is on its way. -/
def Obligations.OneCycleSendsEveryActiveChannelInOrder : Prop :=
  ∀ (s : State) (q : List Slot), BlockInv s → s.phase = .brk →
    s.schedule = [.complete, .core, .complete, .core] ++
      (List.replicate s.activeCount.toNat [Slot.core, Slot.complete]).flatten ++ [.core] ++ q →
    ∃ t, runSteps (5 + 2 * s.activeCount.toNat) s = .next t ∧
      t.link.trace = wire s ++ TraceEntry.sent (some .dat) 0x00#8 ::
        (List.range s.activeCount.toNat).map (fun k => TraceEntry.sent (some .dat) (byteAt (k + 1) s)) ∧
      inFlight t = [TraceEntry.sent (some .brk) 0x00#8] ∧ t.phase = .brk ∧ t.trigger = .tc ∧
      t.snap = s.activeCount ∧ t.values = s.values ∧ t.schedule = q

/-- The link shows only what the core sent, each byte once, in order, and the marker of what it abandons (R182): a completion
keeps the wire, an accepted send adds its byte at the end, an abandon replaces the bytes in flight by `Cut`. -/
def Obligations.TheLinkShowsOnlyWhatWasSent : Prop :=
  ∀ (s : State) (b : Byte), s.faults = [] →
    wire (completionStep s) = wire s ∧
    (s.link.en = true → s.link.hold = none → wire (linkSend b s) = wire s ++ [.sent s.link.mode b]) ∧
    (s.link.en = false → s.link.shift ≠ none → wire (abandonStep s) = s.link.trace ++ [.cut])

/-- The trace only grows, whichever agent moves and whatever is recorded (R182; after a fault, where R207 leaves the wire open,
that a link step still appends is the model's choice, log entry 3). -/
def Obligations.TheTraceOnlyGrows : Prop :=
  ∀ s t : State, step s = .next t → ∃ more, t.link.trace = s.link.trace ++ more

/-- After TERM nothing further is sent until INIT (spec/95_test_vectors.md E9): a step that stays in `Idle` adds no byte to the
wire; at most it abandons the bytes in flight. -/
def Obligations.NothingIsSentWhileIdle : Prop :=
  ∀ s t : State, BlockInv s → s.phase = .idle → t.phase = .idle → step s = .next t →
    wire t = wire s ∨ wire t = s.link.trace ++ [.cut]

/-- The speed and framing change only on an idle link, and only by a handler on TC or by INIT (R153, spec/70_reset_and_hazards.md
R235): any state, any slot but the outside driver's. -/
def Obligations.TheModeChangesOnlyOnAnIdleLink : Prop :=
  ∀ (s t : State) (q : Slot) (rest : List Slot), s.schedule = q :: rest → q ≠ .action →
    step s = .next t → t.link.mode ≠ s.link.mode →
    s.link.shift = none ∧ s.link.hold = none ∧
      ((q = .core ∧ s.trigger = .tc ∧ s.link.txc = true) ∨
        (q = .host ∧ s.phase = .idle ∧ s.port.head? = some 0x10000000#32))

/-- The access table (spec/10_state.md R34): which instructions may change each field of the core. That INIT and TERM, which the
table lists as writers of `i`, leave it alone is the model's choice (R25, log entry 19). -/
def Obligations.EachRegisterHasItsWriters : Prop :=
  ∀ (i : Instr) (s t : State), exec i s = .next t →
    (t.values ≠ s.values → i = .init ∨ (∃ ch v, i = .write ch v) ∨ ∃ idx d, i = .bufwr idx d) ∧
    (t.activeCount ≠ s.activeCount → i = .init ∨ (∃ ch v, i = .write ch v) ∨ ∃ n, i = .setcount n) ∧
    (t.phase ≠ s.phase → i = .init ∨ i = .term ∨ i = .tc) ∧
    (t.index ≠ s.index → i = .sr ∨ i = .tc) ∧
    (t.snap ≠ s.snap → i = .tc) ∧
    (t.trigger ≠ s.trigger → i = .init ∨ i = .term ∨ i = .sr ∨ i = .tc ∨ ∃ u, i = .linkSelect u) ∧
    (t.rdata ≠ s.rdata → (∃ ch, i = .read ch) ∨ ∃ idx, i = .bufrd idx) ∧
    (t.link ≠ s.link → i = .init ∨ i = .term ∨ i = .sr ∨ i = .tc ∨ (∃ e, i = .linkEnable e) ∨
      (∃ m, i = .linkConfigure m) ∨ ∃ b, i = .linkSend b) ∧
    (t.port = s.port ∧ t.actionPort = s.actionPort ∧ t.schedule = s.schedule ∧ t.freeCount = s.freeCount)

/-- The handlers write nothing of the host's (spec/60_exceptions.md R213): `values`, `activeCount`, `RDATA` and the refusal
mark are as they were. -/
def Obligations.HandlersKeepTheHostsState : Prop :=
  ∀ (i : Instr) (s t : State), i = .sr ∨ i = .tc → exec i s = .next t →
    t.values = s.values ∧ t.activeCount = s.activeCount ∧ t.rdata = s.rdata ∧
      t.refused = s.refused ∧ t.refusals = s.refusals

/-- No host command but INIT and TERM moves the cursor or touches the link (R213, spec/41_event_handlers.md R149). -/
def Obligations.HostCommandsKeepTheCursorAndTheLink : Prop :=
  ∀ (w : CommandWord) (i : Instr) (s t : State), decodeCommand w = .instr i → i ≠ .init → i ≠ .term →
    exec i s = .next t →
    t.phase = s.phase ∧ t.index = s.index ∧ t.snap = s.snap ∧ t.trigger = s.trigger ∧ t.link = s.link ∧
      t.faults = s.faults ∧ t.faultRecords = s.faultRecords

/-- The snapshot is taken once per cycle, by the TC delivered in `Break`, from the count as it then stands; nothing else changes
`snap` (spec/10_state.md R26, spec/20_memory.md R60). -/
def Obligations.TheSnapshotIsTakenOnlyAtTheBreak : Prop :=
  ∀ s t : State, step s = .next t → t.snap ≠ s.snap →
    s.phase = .brk ∧ s.trigger = .tc ∧ t.phase = .startCode ∧ t.snap = s.activeCount

/-- Fault codes and the refusal mark are sticky: no step removes one (spec/60_exceptions.md R207, R208). -/
def Obligations.MarksAreSticky : Prop :=
  ∀ s t : State, step s = .next t →
    (∀ c, c ∈ s.faults → c ∈ t.faults) ∧ (s.refused = true → t.refused = true) ∧
      (∃ more, t.faultRecords = s.faultRecords ++ more) ∧ ∃ more, t.refusals = s.refusals ++ more

/-- Every step keeps the buffer in its canonical form, from any state that has it. -/
def Obligations.EveryStepKeepsTheBufferCanonical : Prop :=
  ∀ s t : State, s.values.wf = true → step s = .next t → t.values.wf = true

/-- R102: a held INIT waits for at most two link steps, completions or abandons in any mix, and is then performed. -/
def Obligations.AHeldInitIsPerformedAfterTwoLinkSteps : Prop :=
  ∀ (s : State) (l1 l2 : Slot) (q : List Slot) (ws : List CommandWord), BlockInv s → s.phase = .idle →
    (l1 = .complete ∨ l1 = .abandon) → (l2 = .complete ∨ l2 = .abandon) →
    s.schedule = l1 :: l2 :: .host :: q → s.port = 0x10000000#32 :: ws →
    ∃ t, runSteps 3 s = .next t ∧ t.phase = .brk ∧ t.port = ws ∧ t.schedule = q ∧
      t.link.shift = some 0x00#8 ∧ t.refusals = s.refusals

/-- R152: while a cycle runs, at most two completion steps raise the request the core waits for. -/
def Obligations.TheAwaitedNotificationArrives : Prop :=
  ∀ (s : State) (q : List Slot), BlockInv s → s.phase ≠ .idle → s.schedule = .complete :: .complete :: q →
    ∃ t, runSteps 2 s = .next t ∧ t.phase = s.phase ∧ t.index = s.index ∧ t.trigger = s.trigger ∧
      ((t.trigger = .sr ∧ srq t.link = true) ∨ (t.trigger = .tc ∧ tcq t.link = true))

/-- The round trip (R106): a channel written reads back its clamped value, whatever step of the core or the link comes
between. -/
def Obligations.AWrittenChannelReadsBack : Prop :=
  ∀ (c v : Int) (s s1 s2 : State) (q : Slot) (rest : List Slot), s.values.wf = true → 1 ≤ c → c ≤ 512 →
    exec (.write c v) s = .next s1 → s1.schedule = q :: rest → q = .core ∨ q = .complete ∨ q = .abandon →
    step s1 = .next s2 →
    ∃ t, exec (.read c) s2 = .next t ∧ (t.rdata.toNat : Int) = max 0 (min v 255)

/-- `Idle` is quiescent (spec/60_exceptions.md R219, spec/70_reset_and_hazards.md R230): under the invariant no notification is
delivered, and the next step of the core leaves all as it is. -/
def Obligations.NoNotificationInIdle : Prop :=
  ∀ (s : State) (q : List Slot), BlockInv s → s.phase = .idle → s.schedule = .core :: q →
    step s = .next { s with schedule := q }

/-- Only a completion that leaves the link idle raises `L.txc` (spec/42_link_interface.md R179): of all agents' steps, from any
state. -/
def Obligations.OnlyTheLastCompletionRaisesTxc : Prop :=
  ∀ s t : State, step s = .next t → s.link.txc = false → t.link.txc = true →
    (nextSlot s).1 = .complete ∧ s.link.shift ≠ none ∧ s.link.hold = none ∧ t.link.shift = none ∧ t.link.hold = none

/-- The request lines meet what R183 asks of any link's (its items 2 and 3, and the requests of item 5): `srq` is high exactly
when an enabled link takes one more byte without a fault; `tcq` is high only when every byte has left, not after TC's delivery nor
after a send, and, once low on an idle link whose completion was delivered, no step raises it again; a disabled link raises neither. -/
def Obligations.RequestLinesMeetTheContract : Prop :=
  ∀ (s : State) (b : Byte),
    (srq s.link = true ↔ (linkSend b s).faultRecords = s.faultRecords) ∧
    (tcq s.link = true → inFlight s = []) ∧
    tcq (enterHandler .tc s).link = false ∧
    (srq s.link = true → tcq (linkSend b s).link = false) ∧
    (s.link.shift = none → s.link.txc = false → ∀ t, step s = .next t → tcq t.link = false) ∧
    (s.link.en = false → srq s.link = false ∧ tcq s.link = false)

/-- Under the invariant a core step hands over at most one byte, in the mode then in force (spec/41_event_handlers.md R151). -/
def Obligations.ACoreStepSendsAtMostOneByte : Prop :=
  ∀ (s t : State) (q : List Slot), BlockInv s → s.schedule = .core :: q → step s = .next t →
    wire t = wire s ∨ ∃ b : Byte, wire t = wire s ++ [.sent t.link.mode b]

/-! ## Fair runs (spec/60_exceptions.md R212) -/

/-- In a fair run nothing stays pending for ever (R212): a byte in the shift register is completed, or on a disabled link
abandoned; a deliverable notification is delivered, unless TERM comes first; a held INIT is performed (R102, R209). -/
def Obligations.AFairRunLeavesNothingPending : Prop :=
  ∀ (states : Nat → State) (due : Nat → Slot) (issued : Nat → List CommandWord),
    FairRun states due issued → BlockInv (states 0) → ∀ n : Nat,
    (∀ b, (states n).link.shift = some b → ∃ m, n ≤ m ∧ (states m).link.shift = some b ∧
      (due m = .complete ∨ (due m = .abandon ∧ (states m).link.en = false))) ∧
    (enabled .core (states n) = true → ∃ m, n ≤ m ∧ enabled .core (states m) = true ∧
      (due m = .core ∨
        (due m = .host ∧ ((states m).port ++ issued m).head? = some 0x70000000#32 ∧ (states (m + 1)).phase = .idle))) ∧
    ((states n).phase = .idle → (states n).port.head? = some 0x10000000#32 →
      ∃ m, n ≤ m ∧ (states m).phase = .idle ∧ due m = .host ∧ (states (m + 1)).phase = .brk)

/-- In a fair run "the cycle repeats forever until TERM" (R152): from any phase but `Idle` a next break is started, or `Idle` is
reached; and the only step that reaches `Idle` is the host's TERM. -/
def Obligations.AFairRunRepeatsTheCycle : Prop :=
  ∀ (states : Nat → State) (due : Nat → Slot) (issued : Nat → List CommandWord),
    FairRun states due issued → BlockInv (states 0) → ∀ n : Nat, (states n).phase ≠ .idle →
    (∃ m, n ≤ m ∧ ((states m).phase = .idle ∨ ((states m).phase = .data ∧ (states (m + 1)).phase = .brk))) ∧
    ((states (n + 1)).phase = .idle → due n = .host ∧ ((states n).port ++ issued n).head? = some 0x70000000#32)
end

