-- ==== Sys2Proof/Laws/Encoding.lean ====
section
/-! SUPPORT. The fields of an assembled word are the fields it was assembled from (spec/30_encoding.md R71, R80). -/

namespace Sys2Proof

/-! ### Operand ranges (R73, R77) -/

theorem mapped_iff {idx : Nat} : mapped idx = true ↔ idx ≤ 512 := by
  unfold mapped Config.capacity
  exact decide_eq_true_iff

theorem signed12_iff {x : Int} : signed12 x = true ↔ -2048 ≤ x ∧ x ≤ 2047 := by
  simp [signed12]

theorem signed16_iff {x : Int} : signed16 x = true ↔ -32768 ≤ x ∧ x ≤ 32767 := by
  simp [signed16]

/-! ### Fields -/

theorem commandWord_getLsbD (op : BitVec 4) (a : BitVec 12) (b : BitVec 16) (i : Nat) :
    (commandWord op a b).getLsbD i =
      if i < 16 then b.getLsbD i else if i < 28 then a.getLsbD (i - 16) else op.getLsbD (i - 28) := by
  have h : (commandWord op a b).getLsbD i = (op ++ a ++ b).getLsbD i := rfl
  rw [h, BitVec.getLsbD_append, BitVec.getLsbD_append]
  by_cases h1 : i < 16
  · simp [h1]
  · by_cases h2 : i < 28
    · have : i - 16 < 12 := by omega
      simp [h1, h2, this]
    · have : ¬ i - 16 < 12 := by omega
      simp [h1, h2, this, Nat.sub_sub]

theorem actionWord_getLsbD (k : BitVec 3) (p : Byte) (i : Nat) :
    (actionWord k p).getLsbD i = if i < 8 then p.getLsbD i else k.getLsbD (i - 8) := by
  have h : (actionWord k p).getLsbD i = (k ++ p).getLsbD i := rfl
  rw [h, BitVec.getLsbD_append]

@[simp] theorem opField_commandWord (op : BitVec 4) (a : BitVec 12) (b : BitVec 16) :
    opField (commandWord op a b) = op := by
  refine BitVec.eq_of_getLsbD_eq fun i hi => ?_
  have h1 : ¬ 28 + i < 16 := by omega
  have h2 : ¬ 28 + i < 28 := by omega
  simp only [opField, BitVec.getLsbD_extractLsb', commandWord_getLsbD, hi, h1, h2, decide_true, Bool.true_and, if_false,
    Nat.add_sub_cancel_left]

@[simp] theorem aField_commandWord (op : BitVec 4) (a : BitVec 12) (b : BitVec 16) :
    aField (commandWord op a b) = a := by
  refine BitVec.eq_of_getLsbD_eq fun i hi => ?_
  have h1 : ¬ 16 + i < 16 := by omega
  have h2 : 16 + i < 28 := by omega
  simp only [aField, BitVec.getLsbD_extractLsb', commandWord_getLsbD, hi, h1, h2, decide_true, Bool.true_and, if_false,
    if_true, Nat.add_sub_cancel_left]

@[simp] theorem bField_commandWord (op : BitVec 4) (a : BitVec 12) (b : BitVec 16) :
    bField (commandWord op a b) = b := by
  refine BitVec.eq_of_getLsbD_eq fun i hi => ?_
  simp only [bField, BitVec.getLsbD_extractLsb', commandWord_getLsbD, hi, decide_true, Bool.true_and, if_true, Nat.zero_add]

/-- A command word is assembled from its own fields. -/
theorem commandWord_fields (w : CommandWord) : commandWord (opField w) (aField w) (bField w) = w := by
  refine BitVec.eq_of_getLsbD_eq fun i hi => ?_
  rw [commandWord_getLsbD]
  by_cases h1 : i < 16
  · simp only [h1, if_true, bField, BitVec.getLsbD_extractLsb', decide_true, Bool.true_and, Nat.zero_add]
  · by_cases h2 : i < 28
    · have h3 : i - 16 < 12 := by omega
      have h4 : 16 + (i - 16) = i := by omega
      simp only [h1, h2, h3, h4, if_true, if_false, aField, BitVec.getLsbD_extractLsb', decide_true, Bool.true_and]
    · have h3 : i - 28 < 4 := by omega
      have h4 : 28 + (i - 28) = i := by omega
      simp only [h1, h2, h3, h4, if_false, opField, BitVec.getLsbD_extractLsb', decide_true, Bool.true_and]

end Sys2Proof
end

