-- ==== Sys2Proof/Laws/State.lean ====
section
/-! SUPPORT. One lemma per field and named update of State, so that no later proof unfolds a record update. -/

namespace Sys2Proof.Machine

/-! ### setValues -/

@[simp] theorem setValues_values (m : Memory) (s : State) : (setValues m s).values = m := rfl
@[simp] theorem setValues_activeCount (m : Memory) (s : State) : (setValues m s).activeCount = s.activeCount := rfl
@[simp] theorem setValues_phase (m : Memory) (s : State) : (setValues m s).phase = s.phase := rfl
@[simp] theorem setValues_index (m : Memory) (s : State) : (setValues m s).index = s.index := rfl
@[simp] theorem setValues_snap (m : Memory) (s : State) : (setValues m s).snap = s.snap := rfl
@[simp] theorem setValues_trigger (m : Memory) (s : State) : (setValues m s).trigger = s.trigger := rfl
@[simp] theorem setValues_rdata (m : Memory) (s : State) : (setValues m s).rdata = s.rdata := rfl
@[simp] theorem setValues_link (m : Memory) (s : State) : (setValues m s).link = s.link := rfl
@[simp] theorem setValues_faults (m : Memory) (s : State) : (setValues m s).faults = s.faults := rfl
@[simp] theorem setValues_faultRecords (m : Memory) (s : State) : (setValues m s).faultRecords = s.faultRecords := rfl
@[simp] theorem setValues_refused (m : Memory) (s : State) : (setValues m s).refused = s.refused := rfl
@[simp] theorem setValues_refusals (m : Memory) (s : State) : (setValues m s).refusals = s.refusals := rfl
@[simp] theorem setValues_port (m : Memory) (s : State) : (setValues m s).port = s.port := rfl
@[simp] theorem setValues_actionPort (m : Memory) (s : State) : (setValues m s).actionPort = s.actionPort := rfl
@[simp] theorem setValues_schedule (m : Memory) (s : State) : (setValues m s).schedule = s.schedule := rfl
@[simp] theorem setValues_freeCount (m : Memory) (s : State) : (setValues m s).freeCount = s.freeCount := rfl

/-! ### setActiveCount -/

@[simp] theorem setActiveCount_values (n : Count) (s : State) : (setActiveCount n s).values = s.values := rfl
@[simp] theorem setActiveCount_activeCount (n : Count) (s : State) : (setActiveCount n s).activeCount = n := rfl
@[simp] theorem setActiveCount_phase (n : Count) (s : State) : (setActiveCount n s).phase = s.phase := rfl
@[simp] theorem setActiveCount_index (n : Count) (s : State) : (setActiveCount n s).index = s.index := rfl
@[simp] theorem setActiveCount_snap (n : Count) (s : State) : (setActiveCount n s).snap = s.snap := rfl
@[simp] theorem setActiveCount_trigger (n : Count) (s : State) : (setActiveCount n s).trigger = s.trigger := rfl
@[simp] theorem setActiveCount_rdata (n : Count) (s : State) : (setActiveCount n s).rdata = s.rdata := rfl
@[simp] theorem setActiveCount_link (n : Count) (s : State) : (setActiveCount n s).link = s.link := rfl
@[simp] theorem setActiveCount_faults (n : Count) (s : State) : (setActiveCount n s).faults = s.faults := rfl
@[simp] theorem setActiveCount_faultRecords (n : Count) (s : State) : (setActiveCount n s).faultRecords = s.faultRecords := rfl
@[simp] theorem setActiveCount_refused (n : Count) (s : State) : (setActiveCount n s).refused = s.refused := rfl
@[simp] theorem setActiveCount_refusals (n : Count) (s : State) : (setActiveCount n s).refusals = s.refusals := rfl
@[simp] theorem setActiveCount_port (n : Count) (s : State) : (setActiveCount n s).port = s.port := rfl
@[simp] theorem setActiveCount_actionPort (n : Count) (s : State) : (setActiveCount n s).actionPort = s.actionPort := rfl
@[simp] theorem setActiveCount_schedule (n : Count) (s : State) : (setActiveCount n s).schedule = s.schedule := rfl
@[simp] theorem setActiveCount_freeCount (n : Count) (s : State) : (setActiveCount n s).freeCount = s.freeCount := rfl

/-! ### setPhase -/

@[simp] theorem setPhase_values (p : Phase) (s : State) : (setPhase p s).values = s.values := rfl
@[simp] theorem setPhase_activeCount (p : Phase) (s : State) : (setPhase p s).activeCount = s.activeCount := rfl
@[simp] theorem setPhase_phase (p : Phase) (s : State) : (setPhase p s).phase = p := rfl
@[simp] theorem setPhase_index (p : Phase) (s : State) : (setPhase p s).index = s.index := rfl
@[simp] theorem setPhase_snap (p : Phase) (s : State) : (setPhase p s).snap = s.snap := rfl
@[simp] theorem setPhase_trigger (p : Phase) (s : State) : (setPhase p s).trigger = s.trigger := rfl
@[simp] theorem setPhase_rdata (p : Phase) (s : State) : (setPhase p s).rdata = s.rdata := rfl
@[simp] theorem setPhase_link (p : Phase) (s : State) : (setPhase p s).link = s.link := rfl
@[simp] theorem setPhase_faults (p : Phase) (s : State) : (setPhase p s).faults = s.faults := rfl
@[simp] theorem setPhase_faultRecords (p : Phase) (s : State) : (setPhase p s).faultRecords = s.faultRecords := rfl
@[simp] theorem setPhase_refused (p : Phase) (s : State) : (setPhase p s).refused = s.refused := rfl
@[simp] theorem setPhase_refusals (p : Phase) (s : State) : (setPhase p s).refusals = s.refusals := rfl
@[simp] theorem setPhase_port (p : Phase) (s : State) : (setPhase p s).port = s.port := rfl
@[simp] theorem setPhase_actionPort (p : Phase) (s : State) : (setPhase p s).actionPort = s.actionPort := rfl
@[simp] theorem setPhase_schedule (p : Phase) (s : State) : (setPhase p s).schedule = s.schedule := rfl
@[simp] theorem setPhase_freeCount (p : Phase) (s : State) : (setPhase p s).freeCount = s.freeCount := rfl

/-! ### setIndex -/

@[simp] theorem setIndex_values (i : Count) (s : State) : (setIndex i s).values = s.values := rfl
@[simp] theorem setIndex_activeCount (i : Count) (s : State) : (setIndex i s).activeCount = s.activeCount := rfl
@[simp] theorem setIndex_phase (i : Count) (s : State) : (setIndex i s).phase = s.phase := rfl
@[simp] theorem setIndex_index (i : Count) (s : State) : (setIndex i s).index = i := rfl
@[simp] theorem setIndex_snap (i : Count) (s : State) : (setIndex i s).snap = s.snap := rfl
@[simp] theorem setIndex_trigger (i : Count) (s : State) : (setIndex i s).trigger = s.trigger := rfl
@[simp] theorem setIndex_rdata (i : Count) (s : State) : (setIndex i s).rdata = s.rdata := rfl
@[simp] theorem setIndex_link (i : Count) (s : State) : (setIndex i s).link = s.link := rfl
@[simp] theorem setIndex_faults (i : Count) (s : State) : (setIndex i s).faults = s.faults := rfl
@[simp] theorem setIndex_faultRecords (i : Count) (s : State) : (setIndex i s).faultRecords = s.faultRecords := rfl
@[simp] theorem setIndex_refused (i : Count) (s : State) : (setIndex i s).refused = s.refused := rfl
@[simp] theorem setIndex_refusals (i : Count) (s : State) : (setIndex i s).refusals = s.refusals := rfl
@[simp] theorem setIndex_port (i : Count) (s : State) : (setIndex i s).port = s.port := rfl
@[simp] theorem setIndex_actionPort (i : Count) (s : State) : (setIndex i s).actionPort = s.actionPort := rfl
@[simp] theorem setIndex_schedule (i : Count) (s : State) : (setIndex i s).schedule = s.schedule := rfl
@[simp] theorem setIndex_freeCount (i : Count) (s : State) : (setIndex i s).freeCount = s.freeCount := rfl

/-! ### setSnap -/

@[simp] theorem setSnap_values (n : Count) (s : State) : (setSnap n s).values = s.values := rfl
@[simp] theorem setSnap_activeCount (n : Count) (s : State) : (setSnap n s).activeCount = s.activeCount := rfl
@[simp] theorem setSnap_phase (n : Count) (s : State) : (setSnap n s).phase = s.phase := rfl
@[simp] theorem setSnap_index (n : Count) (s : State) : (setSnap n s).index = s.index := rfl
@[simp] theorem setSnap_snap (n : Count) (s : State) : (setSnap n s).snap = n := rfl
@[simp] theorem setSnap_trigger (n : Count) (s : State) : (setSnap n s).trigger = s.trigger := rfl
@[simp] theorem setSnap_rdata (n : Count) (s : State) : (setSnap n s).rdata = s.rdata := rfl
@[simp] theorem setSnap_link (n : Count) (s : State) : (setSnap n s).link = s.link := rfl
@[simp] theorem setSnap_faults (n : Count) (s : State) : (setSnap n s).faults = s.faults := rfl
@[simp] theorem setSnap_faultRecords (n : Count) (s : State) : (setSnap n s).faultRecords = s.faultRecords := rfl
@[simp] theorem setSnap_refused (n : Count) (s : State) : (setSnap n s).refused = s.refused := rfl
@[simp] theorem setSnap_refusals (n : Count) (s : State) : (setSnap n s).refusals = s.refusals := rfl
@[simp] theorem setSnap_port (n : Count) (s : State) : (setSnap n s).port = s.port := rfl
@[simp] theorem setSnap_actionPort (n : Count) (s : State) : (setSnap n s).actionPort = s.actionPort := rfl
@[simp] theorem setSnap_schedule (n : Count) (s : State) : (setSnap n s).schedule = s.schedule := rfl
@[simp] theorem setSnap_freeCount (n : Count) (s : State) : (setSnap n s).freeCount = s.freeCount := rfl

/-! ### setTrigger -/

@[simp] theorem setTrigger_values (t : Trigger) (s : State) : (setTrigger t s).values = s.values := rfl
@[simp] theorem setTrigger_activeCount (t : Trigger) (s : State) : (setTrigger t s).activeCount = s.activeCount := rfl
@[simp] theorem setTrigger_phase (t : Trigger) (s : State) : (setTrigger t s).phase = s.phase := rfl
@[simp] theorem setTrigger_index (t : Trigger) (s : State) : (setTrigger t s).index = s.index := rfl
@[simp] theorem setTrigger_snap (t : Trigger) (s : State) : (setTrigger t s).snap = s.snap := rfl
@[simp] theorem setTrigger_trigger (t : Trigger) (s : State) : (setTrigger t s).trigger = t := rfl
@[simp] theorem setTrigger_rdata (t : Trigger) (s : State) : (setTrigger t s).rdata = s.rdata := rfl
@[simp] theorem setTrigger_link (t : Trigger) (s : State) : (setTrigger t s).link = s.link := rfl
@[simp] theorem setTrigger_faults (t : Trigger) (s : State) : (setTrigger t s).faults = s.faults := rfl
@[simp] theorem setTrigger_faultRecords (t : Trigger) (s : State) : (setTrigger t s).faultRecords = s.faultRecords := rfl
@[simp] theorem setTrigger_refused (t : Trigger) (s : State) : (setTrigger t s).refused = s.refused := rfl
@[simp] theorem setTrigger_refusals (t : Trigger) (s : State) : (setTrigger t s).refusals = s.refusals := rfl
@[simp] theorem setTrigger_port (t : Trigger) (s : State) : (setTrigger t s).port = s.port := rfl
@[simp] theorem setTrigger_actionPort (t : Trigger) (s : State) : (setTrigger t s).actionPort = s.actionPort := rfl
@[simp] theorem setTrigger_schedule (t : Trigger) (s : State) : (setTrigger t s).schedule = s.schedule := rfl
@[simp] theorem setTrigger_freeCount (t : Trigger) (s : State) : (setTrigger t s).freeCount = s.freeCount := rfl

/-! ### setRdata -/

@[simp] theorem setRdata_values (b : Byte) (s : State) : (setRdata b s).values = s.values := rfl
@[simp] theorem setRdata_activeCount (b : Byte) (s : State) : (setRdata b s).activeCount = s.activeCount := rfl
@[simp] theorem setRdata_phase (b : Byte) (s : State) : (setRdata b s).phase = s.phase := rfl
@[simp] theorem setRdata_index (b : Byte) (s : State) : (setRdata b s).index = s.index := rfl
@[simp] theorem setRdata_snap (b : Byte) (s : State) : (setRdata b s).snap = s.snap := rfl
@[simp] theorem setRdata_trigger (b : Byte) (s : State) : (setRdata b s).trigger = s.trigger := rfl
@[simp] theorem setRdata_rdata (b : Byte) (s : State) : (setRdata b s).rdata = b := rfl
@[simp] theorem setRdata_link (b : Byte) (s : State) : (setRdata b s).link = s.link := rfl
@[simp] theorem setRdata_faults (b : Byte) (s : State) : (setRdata b s).faults = s.faults := rfl
@[simp] theorem setRdata_faultRecords (b : Byte) (s : State) : (setRdata b s).faultRecords = s.faultRecords := rfl
@[simp] theorem setRdata_refused (b : Byte) (s : State) : (setRdata b s).refused = s.refused := rfl
@[simp] theorem setRdata_refusals (b : Byte) (s : State) : (setRdata b s).refusals = s.refusals := rfl
@[simp] theorem setRdata_port (b : Byte) (s : State) : (setRdata b s).port = s.port := rfl
@[simp] theorem setRdata_actionPort (b : Byte) (s : State) : (setRdata b s).actionPort = s.actionPort := rfl
@[simp] theorem setRdata_schedule (b : Byte) (s : State) : (setRdata b s).schedule = s.schedule := rfl
@[simp] theorem setRdata_freeCount (b : Byte) (s : State) : (setRdata b s).freeCount = s.freeCount := rfl

/-! ### setLink -/

@[simp] theorem setLink_values (l : Link) (s : State) : (setLink l s).values = s.values := rfl
@[simp] theorem setLink_activeCount (l : Link) (s : State) : (setLink l s).activeCount = s.activeCount := rfl
@[simp] theorem setLink_phase (l : Link) (s : State) : (setLink l s).phase = s.phase := rfl
@[simp] theorem setLink_index (l : Link) (s : State) : (setLink l s).index = s.index := rfl
@[simp] theorem setLink_snap (l : Link) (s : State) : (setLink l s).snap = s.snap := rfl
@[simp] theorem setLink_trigger (l : Link) (s : State) : (setLink l s).trigger = s.trigger := rfl
@[simp] theorem setLink_rdata (l : Link) (s : State) : (setLink l s).rdata = s.rdata := rfl
@[simp] theorem setLink_link (l : Link) (s : State) : (setLink l s).link = l := rfl
@[simp] theorem setLink_faults (l : Link) (s : State) : (setLink l s).faults = s.faults := rfl
@[simp] theorem setLink_faultRecords (l : Link) (s : State) : (setLink l s).faultRecords = s.faultRecords := rfl
@[simp] theorem setLink_refused (l : Link) (s : State) : (setLink l s).refused = s.refused := rfl
@[simp] theorem setLink_refusals (l : Link) (s : State) : (setLink l s).refusals = s.refusals := rfl
@[simp] theorem setLink_port (l : Link) (s : State) : (setLink l s).port = s.port := rfl
@[simp] theorem setLink_actionPort (l : Link) (s : State) : (setLink l s).actionPort = s.actionPort := rfl
@[simp] theorem setLink_schedule (l : Link) (s : State) : (setLink l s).schedule = s.schedule := rfl
@[simp] theorem setLink_freeCount (l : Link) (s : State) : (setLink l s).freeCount = s.freeCount := rfl

/-! ### setPort -/

@[simp] theorem setPort_values (ws : List CommandWord) (s : State) : (setPort ws s).values = s.values := rfl
@[simp] theorem setPort_activeCount (ws : List CommandWord) (s : State) : (setPort ws s).activeCount = s.activeCount := rfl
@[simp] theorem setPort_phase (ws : List CommandWord) (s : State) : (setPort ws s).phase = s.phase := rfl
@[simp] theorem setPort_index (ws : List CommandWord) (s : State) : (setPort ws s).index = s.index := rfl
@[simp] theorem setPort_snap (ws : List CommandWord) (s : State) : (setPort ws s).snap = s.snap := rfl
@[simp] theorem setPort_trigger (ws : List CommandWord) (s : State) : (setPort ws s).trigger = s.trigger := rfl
@[simp] theorem setPort_rdata (ws : List CommandWord) (s : State) : (setPort ws s).rdata = s.rdata := rfl
@[simp] theorem setPort_link (ws : List CommandWord) (s : State) : (setPort ws s).link = s.link := rfl
@[simp] theorem setPort_faults (ws : List CommandWord) (s : State) : (setPort ws s).faults = s.faults := rfl
@[simp] theorem setPort_faultRecords (ws : List CommandWord) (s : State) : (setPort ws s).faultRecords = s.faultRecords := rfl
@[simp] theorem setPort_refused (ws : List CommandWord) (s : State) : (setPort ws s).refused = s.refused := rfl
@[simp] theorem setPort_refusals (ws : List CommandWord) (s : State) : (setPort ws s).refusals = s.refusals := rfl
@[simp] theorem setPort_port (ws : List CommandWord) (s : State) : (setPort ws s).port = ws := rfl
@[simp] theorem setPort_actionPort (ws : List CommandWord) (s : State) : (setPort ws s).actionPort = s.actionPort := rfl
@[simp] theorem setPort_schedule (ws : List CommandWord) (s : State) : (setPort ws s).schedule = s.schedule := rfl
@[simp] theorem setPort_freeCount (ws : List CommandWord) (s : State) : (setPort ws s).freeCount = s.freeCount := rfl

/-! ### setActionPort -/

@[simp] theorem setActionPort_values (ws : List ActionWord) (s : State) : (setActionPort ws s).values = s.values := rfl
@[simp] theorem setActionPort_activeCount (ws : List ActionWord) (s : State) : (setActionPort ws s).activeCount = s.activeCount := rfl
@[simp] theorem setActionPort_phase (ws : List ActionWord) (s : State) : (setActionPort ws s).phase = s.phase := rfl
@[simp] theorem setActionPort_index (ws : List ActionWord) (s : State) : (setActionPort ws s).index = s.index := rfl
@[simp] theorem setActionPort_snap (ws : List ActionWord) (s : State) : (setActionPort ws s).snap = s.snap := rfl
@[simp] theorem setActionPort_trigger (ws : List ActionWord) (s : State) : (setActionPort ws s).trigger = s.trigger := rfl
@[simp] theorem setActionPort_rdata (ws : List ActionWord) (s : State) : (setActionPort ws s).rdata = s.rdata := rfl
@[simp] theorem setActionPort_link (ws : List ActionWord) (s : State) : (setActionPort ws s).link = s.link := rfl
@[simp] theorem setActionPort_faults (ws : List ActionWord) (s : State) : (setActionPort ws s).faults = s.faults := rfl
@[simp] theorem setActionPort_faultRecords (ws : List ActionWord) (s : State) : (setActionPort ws s).faultRecords = s.faultRecords := rfl
@[simp] theorem setActionPort_refused (ws : List ActionWord) (s : State) : (setActionPort ws s).refused = s.refused := rfl
@[simp] theorem setActionPort_refusals (ws : List ActionWord) (s : State) : (setActionPort ws s).refusals = s.refusals := rfl
@[simp] theorem setActionPort_port (ws : List ActionWord) (s : State) : (setActionPort ws s).port = s.port := rfl
@[simp] theorem setActionPort_actionPort (ws : List ActionWord) (s : State) : (setActionPort ws s).actionPort = ws := rfl
@[simp] theorem setActionPort_schedule (ws : List ActionWord) (s : State) : (setActionPort ws s).schedule = s.schedule := rfl
@[simp] theorem setActionPort_freeCount (ws : List ActionWord) (s : State) : (setActionPort ws s).freeCount = s.freeCount := rfl

/-! ### setSchedule -/

@[simp] theorem setSchedule_values (q : List Slot) (s : State) : (setSchedule q s).values = s.values := rfl
@[simp] theorem setSchedule_activeCount (q : List Slot) (s : State) : (setSchedule q s).activeCount = s.activeCount := rfl
@[simp] theorem setSchedule_phase (q : List Slot) (s : State) : (setSchedule q s).phase = s.phase := rfl
@[simp] theorem setSchedule_index (q : List Slot) (s : State) : (setSchedule q s).index = s.index := rfl
@[simp] theorem setSchedule_snap (q : List Slot) (s : State) : (setSchedule q s).snap = s.snap := rfl
@[simp] theorem setSchedule_trigger (q : List Slot) (s : State) : (setSchedule q s).trigger = s.trigger := rfl
@[simp] theorem setSchedule_rdata (q : List Slot) (s : State) : (setSchedule q s).rdata = s.rdata := rfl
@[simp] theorem setSchedule_link (q : List Slot) (s : State) : (setSchedule q s).link = s.link := rfl
@[simp] theorem setSchedule_faults (q : List Slot) (s : State) : (setSchedule q s).faults = s.faults := rfl
@[simp] theorem setSchedule_faultRecords (q : List Slot) (s : State) : (setSchedule q s).faultRecords = s.faultRecords := rfl
@[simp] theorem setSchedule_refused (q : List Slot) (s : State) : (setSchedule q s).refused = s.refused := rfl
@[simp] theorem setSchedule_refusals (q : List Slot) (s : State) : (setSchedule q s).refusals = s.refusals := rfl
@[simp] theorem setSchedule_port (q : List Slot) (s : State) : (setSchedule q s).port = s.port := rfl
@[simp] theorem setSchedule_actionPort (q : List Slot) (s : State) : (setSchedule q s).actionPort = s.actionPort := rfl
@[simp] theorem setSchedule_schedule (q : List Slot) (s : State) : (setSchedule q s).schedule = q := rfl
@[simp] theorem setSchedule_freeCount (q : List Slot) (s : State) : (setSchedule q s).freeCount = s.freeCount := rfl

/-! ### setFreeCount -/

@[simp] theorem setFreeCount_values (n : Nat) (s : State) : (setFreeCount n s).values = s.values := rfl
@[simp] theorem setFreeCount_activeCount (n : Nat) (s : State) : (setFreeCount n s).activeCount = s.activeCount := rfl
@[simp] theorem setFreeCount_phase (n : Nat) (s : State) : (setFreeCount n s).phase = s.phase := rfl
@[simp] theorem setFreeCount_index (n : Nat) (s : State) : (setFreeCount n s).index = s.index := rfl
@[simp] theorem setFreeCount_snap (n : Nat) (s : State) : (setFreeCount n s).snap = s.snap := rfl
@[simp] theorem setFreeCount_trigger (n : Nat) (s : State) : (setFreeCount n s).trigger = s.trigger := rfl
@[simp] theorem setFreeCount_rdata (n : Nat) (s : State) : (setFreeCount n s).rdata = s.rdata := rfl
@[simp] theorem setFreeCount_link (n : Nat) (s : State) : (setFreeCount n s).link = s.link := rfl
@[simp] theorem setFreeCount_faults (n : Nat) (s : State) : (setFreeCount n s).faults = s.faults := rfl
@[simp] theorem setFreeCount_faultRecords (n : Nat) (s : State) : (setFreeCount n s).faultRecords = s.faultRecords := rfl
@[simp] theorem setFreeCount_refused (n : Nat) (s : State) : (setFreeCount n s).refused = s.refused := rfl
@[simp] theorem setFreeCount_refusals (n : Nat) (s : State) : (setFreeCount n s).refusals = s.refusals := rfl
@[simp] theorem setFreeCount_port (n : Nat) (s : State) : (setFreeCount n s).port = s.port := rfl
@[simp] theorem setFreeCount_actionPort (n : Nat) (s : State) : (setFreeCount n s).actionPort = s.actionPort := rfl
@[simp] theorem setFreeCount_schedule (n : Nat) (s : State) : (setFreeCount n s).schedule = s.schedule := rfl
@[simp] theorem setFreeCount_freeCount (n : Nat) (s : State) : (setFreeCount n s).freeCount = n := rfl

/-! ### setData -/

@[simp] theorem setData_values (i : Count) (s : State) : (setData i s).values = s.values := rfl
@[simp] theorem setData_activeCount (i : Count) (s : State) : (setData i s).activeCount = s.activeCount := rfl
@[simp] theorem setData_phase (i : Count) (s : State) : (setData i s).phase = .data := rfl
@[simp] theorem setData_index (i : Count) (s : State) : (setData i s).index = i := rfl
@[simp] theorem setData_snap (i : Count) (s : State) : (setData i s).snap = s.snap := rfl
@[simp] theorem setData_trigger (i : Count) (s : State) : (setData i s).trigger = s.trigger := rfl
@[simp] theorem setData_rdata (i : Count) (s : State) : (setData i s).rdata = s.rdata := rfl
@[simp] theorem setData_link (i : Count) (s : State) : (setData i s).link = s.link := rfl
@[simp] theorem setData_faults (i : Count) (s : State) : (setData i s).faults = s.faults := rfl
@[simp] theorem setData_faultRecords (i : Count) (s : State) : (setData i s).faultRecords = s.faultRecords := rfl
@[simp] theorem setData_refused (i : Count) (s : State) : (setData i s).refused = s.refused := rfl
@[simp] theorem setData_refusals (i : Count) (s : State) : (setData i s).refusals = s.refusals := rfl
@[simp] theorem setData_port (i : Count) (s : State) : (setData i s).port = s.port := rfl
@[simp] theorem setData_actionPort (i : Count) (s : State) : (setData i s).actionPort = s.actionPort := rfl
@[simp] theorem setData_schedule (i : Count) (s : State) : (setData i s).schedule = s.schedule := rfl
@[simp] theorem setData_freeCount (i : Count) (s : State) : (setData i s).freeCount = s.freeCount := rfl

/-! ### raiseFault -/

@[simp] theorem raiseFault_values (f : FaultRecord) (s : State) : (raiseFault f s).values = s.values := rfl
@[simp] theorem raiseFault_activeCount (f : FaultRecord) (s : State) : (raiseFault f s).activeCount = s.activeCount := rfl
@[simp] theorem raiseFault_phase (f : FaultRecord) (s : State) : (raiseFault f s).phase = s.phase := rfl
@[simp] theorem raiseFault_index (f : FaultRecord) (s : State) : (raiseFault f s).index = s.index := rfl
@[simp] theorem raiseFault_snap (f : FaultRecord) (s : State) : (raiseFault f s).snap = s.snap := rfl
@[simp] theorem raiseFault_trigger (f : FaultRecord) (s : State) : (raiseFault f s).trigger = s.trigger := rfl
@[simp] theorem raiseFault_rdata (f : FaultRecord) (s : State) : (raiseFault f s).rdata = s.rdata := rfl
@[simp] theorem raiseFault_link (f : FaultRecord) (s : State) : (raiseFault f s).link = s.link := rfl
@[simp] theorem raiseFault_faults (f : FaultRecord) (s : State) : (raiseFault f s).faults = insertFault (faultCode f) s.faults := rfl
@[simp] theorem raiseFault_faultRecords (f : FaultRecord) (s : State) : (raiseFault f s).faultRecords = s.faultRecords ++ [f] := rfl
@[simp] theorem raiseFault_refused (f : FaultRecord) (s : State) : (raiseFault f s).refused = s.refused := rfl
@[simp] theorem raiseFault_refusals (f : FaultRecord) (s : State) : (raiseFault f s).refusals = s.refusals := rfl
@[simp] theorem raiseFault_port (f : FaultRecord) (s : State) : (raiseFault f s).port = s.port := rfl
@[simp] theorem raiseFault_actionPort (f : FaultRecord) (s : State) : (raiseFault f s).actionPort = s.actionPort := rfl
@[simp] theorem raiseFault_schedule (f : FaultRecord) (s : State) : (raiseFault f s).schedule = s.schedule := rfl
@[simp] theorem raiseFault_freeCount (f : FaultRecord) (s : State) : (raiseFault f s).freeCount = s.freeCount := rfl

/-! ### refuse -/

@[simp] theorem refuse_values (r : RefusalReason) (s : State) : (refuse r s).values = s.values := rfl
@[simp] theorem refuse_activeCount (r : RefusalReason) (s : State) : (refuse r s).activeCount = s.activeCount := rfl
@[simp] theorem refuse_phase (r : RefusalReason) (s : State) : (refuse r s).phase = s.phase := rfl
@[simp] theorem refuse_index (r : RefusalReason) (s : State) : (refuse r s).index = s.index := rfl
@[simp] theorem refuse_snap (r : RefusalReason) (s : State) : (refuse r s).snap = s.snap := rfl
@[simp] theorem refuse_trigger (r : RefusalReason) (s : State) : (refuse r s).trigger = s.trigger := rfl
@[simp] theorem refuse_rdata (r : RefusalReason) (s : State) : (refuse r s).rdata = s.rdata := rfl
@[simp] theorem refuse_link (r : RefusalReason) (s : State) : (refuse r s).link = s.link := rfl
@[simp] theorem refuse_faults (r : RefusalReason) (s : State) : (refuse r s).faults = s.faults := rfl
@[simp] theorem refuse_faultRecords (r : RefusalReason) (s : State) : (refuse r s).faultRecords = s.faultRecords := rfl
@[simp] theorem refuse_refused (r : RefusalReason) (s : State) : (refuse r s).refused = true := rfl
@[simp] theorem refuse_refusals (r : RefusalReason) (s : State) : (refuse r s).refusals = s.refusals ++ [r] := rfl
@[simp] theorem refuse_port (r : RefusalReason) (s : State) : (refuse r s).port = s.port := rfl
@[simp] theorem refuse_actionPort (r : RefusalReason) (s : State) : (refuse r s).actionPort = s.actionPort := rfl
@[simp] theorem refuse_schedule (r : RefusalReason) (s : State) : (refuse r s).schedule = s.schedule := rfl
@[simp] theorem refuse_freeCount (r : RefusalReason) (s : State) : (refuse r s).freeCount = s.freeCount := rfl

end Sys2Proof.Machine
end

