-- ==== Sys2Proof/Laws/Memory.lean ====
section
/-! SUPPORT. The channel buffer: read after write, the canonical form kept by every operation, and the two access primitives. -/

namespace Sys2Proof.Machine

/-! ### The canonical form -/

theorem wfAbove_cons {lo a : Nat} {v : Byte} {rest : Memory} :
    Memory.wfAbove lo ((a, v) :: rest) = true ↔
      lo < a ∧ a ≤ Config.capacity ∧ v ≠ 0x00#8 ∧ Memory.wfAbove a rest = true := by
  simp [Memory.wfAbove, and_assoc]

theorem wfAbove_weaken {lo lo' : Nat} {m : Memory} (hm : Memory.wfAbove lo m = true) (h : lo' ≤ lo) :
    Memory.wfAbove lo' m = true := by
  cases m with
  | nil => rfl
  | cons c rest =>
    obtain ⟨a, v⟩ := c
    rw [wfAbove_cons] at hm ⊢
    exact ⟨by omega, hm.2⟩

/-- Nothing is listed at or below the bound. -/
theorem memLookup_below {lo a : Nat} {m : Memory} (hm : Memory.wfAbove lo m = true) (h : a ≤ lo) :
    memLookup a m = 0x00#8 := by
  induction m generalizing lo with
  | nil => rfl
  | cons c rest ih =>
    obtain ⟨b, w⟩ := c
    rw [wfAbove_cons] at hm
    have hne : a ≠ b := by omega
    simp only [memLookup, hne, if_false]
    exact ih hm.2.2.2 (by omega)

theorem memInsert_wfAbove {lo a : Nat} {v : Byte} {m : Memory} (hm : Memory.wfAbove lo m = true)
    (hlo : lo < a) (ha : a ≤ Config.capacity) : Memory.wfAbove lo (memInsert a v m) = true := by
  induction m generalizing lo with
  | nil =>
    unfold memInsert
    split
    · rfl
    · exact wfAbove_cons.2 ⟨hlo, ha, ‹_›, rfl⟩
  | cons c rest ih =>
    obtain ⟨b, w⟩ := c
    have hc := wfAbove_cons.1 hm
    unfold memInsert
    split
    · split
      · exact hm
      · exact wfAbove_cons.2 ⟨hlo, ha, ‹_›, wfAbove_cons.2 ⟨‹_›, hc.2⟩⟩
    · split
      · subst_vars
        split
        · exact wfAbove_weaken hc.2.2.2 (by omega)
        · exact wfAbove_cons.2 ⟨hlo, ha, ‹_›, hc.2.2.2⟩
      · exact wfAbove_cons.2 ⟨hc.1, hc.2.1, hc.2.2.1, ih hc.2.2.2 (by omega)⟩

/-- A write keeps the canonical form. -/
theorem memInsert_wf {a : Nat} {v : Byte} {m : Memory} (hm : m.wf = true) (h1 : 1 ≤ a) (ha : a ≤ Config.capacity) :
    (memInsert a v m).wf = true :=
  memInsert_wfAbove hm (by omega) ha

/-! ### Read after write -/

theorem memLookup_memInsert_other {a b : Nat} {v : Byte} {m : Memory} (h : b ≠ a) :
    memLookup b (memInsert a v m) = memLookup b m := by
  induction m with
  | nil => unfold memInsert; split <;> simp [memLookup, h]
  | cons c rest ih =>
    obtain ⟨x, w⟩ := c
    unfold memInsert
    split
    · split <;> simp [memLookup, h]
    · split
      · subst_vars
        split <;> simp [memLookup, h]
      · simp only [memLookup, ih]

theorem memLookup_memInsert_same {lo a : Nat} {v : Byte} {m : Memory} (hm : Memory.wfAbove lo m = true) :
    memLookup a (memInsert a v m) = v := by
  induction m generalizing lo with
  | nil =>
    unfold memInsert
    split
    · subst_vars; rfl
    · simp [memLookup]
  | cons c rest ih =>
    obtain ⟨x, w⟩ := c
    have hc := wfAbove_cons.1 hm
    unfold memInsert
    split
    · split
      · have hne : a ≠ x := by omega
        subst_vars
        simp only [memLookup, hne, if_false]
        exact memLookup_below hc.2.2.2 (by omega)
      · simp [memLookup]
    · split
      · subst_vars
        split
        · subst_vars
          exact memLookup_below hc.2.2.2 le_rfl
        · simp [memLookup]
      · rename_i h1 h2
        simp only [memLookup, h2, if_false]
        exact ih hc.2.2.2

/-! ### The access primitives (spec/20_memory.md R53) -/

@[simp] theorem byteAt_zero (s : State) : byteAt 0 s = 0x00#8 := rfl

theorem memRead_mapped {idx : Nat} {s : State} (h : idx ≤ Config.capacity) : memRead idx s = .ok (byteAt idx s) :=
  if_pos h

theorem memRead_unmapped {idx : Nat} {s : State} (h : Config.capacity < idx) :
    memRead idx s = .error (.unmappedIndex idx) :=
  if_neg (by omega)

theorem memWrite_zero (v : Byte) (s : State) : memWrite 0 v s = .ok s := rfl

theorem memWrite_channel {idx : Nat} {v : Byte} {s : State} (h1 : 1 ≤ idx) (h2 : idx ≤ Config.capacity) :
    memWrite idx v s = .ok (setValues (memInsert idx v s.values) s) := by
  have h0 : idx ≠ 0 := by omega
  simp [memWrite, h0, h2]

theorem memWrite_unmapped {idx : Nat} {v : Byte} {s : State} (h : Config.capacity < idx) :
    memWrite idx v s = .error (.unmappedIndex idx) := by
  have h0 : idx ≠ 0 := by omega
  have h1 : ¬ idx ≤ Config.capacity := by omega
  simp [memWrite, h0, h1]

/-- Everything a buffer write can do: only `values` changes, the canonical form is kept, the byte written reads back
(0x00 at index 0), and every other index reads as before. -/
theorem memWrite_spec {idx : Nat} {v : Byte} {s t : State} (h : memWrite idx v s = .ok t) (hm : s.values.wf = true) :
    t = setValues t.values s ∧ t.values.wf = true ∧ byteAt idx t = (if idx = 0 then 0x00#8 else v) ∧
      ∀ a, a ≠ idx → byteAt a t = byteAt a s := by
  by_cases h0 : idx = 0
  · subst h0
    obtain rfl : s = t := by simpa [memWrite_zero] using h
    exact ⟨rfl, hm, rfl, fun _ _ => rfl⟩
  · by_cases h2 : idx ≤ Config.capacity
    · rw [memWrite_channel (by omega) h2] at h
      obtain rfl : setValues (memInsert idx v s.values) s = t := by simpa using h
      refine ⟨rfl, memInsert_wf hm (by omega) h2, ?_, fun a ha => ?_⟩
      · simp [byteAt, h0, memLookup_memInsert_same hm]
      · simp [byteAt, memLookup_memInsert_other ha]
    · rw [memWrite_unmapped (by omega)] at h
      cases h

theorem orFault_ok {α : Type} (a : α) (k : α → Result) : orFault (.ok a) k = k a := rfl

theorem orFault_error {α : Type} (f : Fault) (k : α → Result) : orFault (.error f : Except Fault α) k = .fault f := rfl

/-- A continued access succeeded. -/
theorem orFault_next {α : Type} {r : Except Fault α} {k : α → Result} {t : State} (h : orFault r k = .next t) :
    ∃ a, r = .ok a ∧ k a = .next t := by
  cases r with
  | ok a => exact ⟨a, rfl, h⟩
  | error f => cases h

/-! ### Operands (spec/40_host_commands.md R112) -/

theorem clampChannel_range (x : Int) : 1 ≤ clampChannel x ∧ clampChannel x ≤ Config.capacity := by
  unfold clampChannel clamp Config.capacity
  split
  · decide
  · split
    · decide
    · omega

theorem clampChannel_inside {x : Int} (h1 : 1 ≤ x) (h2 : x ≤ 512) : (clampChannel x : Int) = x := by
  unfold clampChannel clamp Config.capacity
  split
  · omega
  · split <;> omega

/-- A clamped channel or count fits its 10-bit register (R10). -/
theorem clampChannel_count (x : Int) : (BitVec.ofNat 10 (clampChannel x)).toNat = clampChannel x := by
  have h := (clampChannel_range x).2
  unfold Config.capacity at h
  simp only [BitVec.toNat_ofNat]
  omega

end Sys2Proof.Machine
end

