-- ==== Sys2Proof/Laws/Ops.lean ====
section
/-! SUPPORT. The link actions, the link steps, the marks and the handlers' entry: what each can do, said once. -/

namespace Sys2Proof.Machine

/-! ### Conditions of the link (spec/42_link_interface.md R171, R178, R179) -/

theorem linkIdle_iff {l : Link} : linkIdle l = true ↔ l.shift = none ∧ l.hold = none := by
  simp [linkIdle]

theorem srq_iff {l : Link} : srq l = true ↔ l.en = true ∧ l.hold = none := by
  simp [srq]

theorem tcq_iff {l : Link} : tcq l = true ↔ l.en = true ∧ l.txc = true ∧ l.shift = none ∧ l.hold = none := by
  simp [tcq, linkIdle, and_assoc]

/-- The delivery word delivers SR exactly when the trigger selects it and its line is high (R79). -/
theorem decodeDelivery_sr (s : State) :
    decodeDelivery (deliveryWord s) = .instr .sr ↔ s.trigger = .sr ∧ srq s.link = true := by
  unfold deliveryWord
  cases s.trigger <;> cases tcq s.link <;> cases srq s.link <;> decide

/-- The delivery word delivers TC exactly when the trigger selects it and its line is high (R79). -/
theorem decodeDelivery_tc (s : State) :
    decodeDelivery (deliveryWord s) = .instr .tc ↔ s.trigger = .tc ∧ tcq s.link = true := by
  unfold deliveryWord
  cases s.trigger <;> cases tcq s.link <;> cases srq s.link <;> decide

/-- A delivery word delivers SR, TC or nothing. -/
theorem decodeDelivery_cases (w : DeliveryWord) :
    decodeDelivery w = .instr .sr ∨ decodeDelivery w = .instr .tc ∨ decodeDelivery w = .notDelivered := by
  unfold decodeDelivery
  split <;> simp

/-! ### Link actions -/

theorem linkConfigure_idle {m : WireMode} {s : State} (h : linkIdle s.link = true) :
    linkConfigure m s = setLink { s.link with mode := some m } s :=
  if_pos h

theorem linkConfigure_busy {m : WireMode} {s : State} (h : linkIdle s.link = false) :
    linkConfigure m s =
      raiseFault (.lineCorrupt m) (setLink { traceAppend .corrupt s.link with mode := some m } s) := by
  simp [linkConfigure, h]

theorem linkSend_ready {b : Byte} {s : State} (he : s.link.en = true) (hh : s.link.hold = none) :
    linkSend b s = setLink (acceptByte b s.link) s := by
  simp [linkSend, he, hh]

theorem linkSend_disabled {b : Byte} {s : State} (he : s.link.en = false) :
    linkSend b s = raiseFault (.sendDisabled b) s := by
  simp [linkSend, he]

theorem linkSend_full {b : Byte} {s : State} (he : s.link.en = true) (hh : s.link.hold ≠ none) :
    linkSend b s = raiseFault (.overrun b) s := by
  obtain ⟨h, hh⟩ := Option.ne_none_iff_exists'.1 hh
  simp [linkSend, he, hh]

/-- Everything a send can do: take the byte, or discard it with a fault. -/
theorem linkSend_cases (b : Byte) (s : State) :
    (s.link.en = true ∧ s.link.hold = none ∧ linkSend b s = setLink (acceptByte b s.link) s) ∨
    (∃ f, linkSend b s = raiseFault f s) := by
  cases he : s.link.en with
  | false => exact .inr ⟨_, linkSend_disabled he⟩
  | true =>
    by_cases hh : s.link.hold = none
    · exact .inl ⟨rfl, hh, linkSend_ready he hh⟩
    · exact .inr ⟨_, linkSend_full he hh⟩

theorem acceptByte_empty {b : Byte} {l : Link} (h : l.shift = none) :
    acceptByte b l = { l with shift := some b, txc := false } := by
  simp [acceptByte, h]

theorem acceptByte_behind {b : Byte} {l : Link} (h : l.shift ≠ none) :
    acceptByte b l = { l with hold := some b, txc := false } := by
  obtain ⟨x, hx⟩ := Option.ne_none_iff_exists'.1 h
  simp [acceptByte, hx]

/-! ### Link steps -/

theorem showOnWire_clean {e : TraceEntry} {s : State} (h : s.faults = []) :
    showOnWire e s = setLink (traceAppend e s.link) s := by
  simp [showOnWire, faultFree, h]

/-- The completion step of a link with nothing recorded against it, a byte held behind (R177). -/
theorem completionStep_held {b x : Byte} {s : State} (hf : s.faults = []) (hs : s.link.shift = some b)
    (hh : s.link.hold = some x) :
    completionStep s = setLink { s.link with
      trace := s.link.trace ++ [.sent s.link.mode b], shift := some x, hold := none } s := by
  simp [completionStep, hs, showOnWire_clean hf, shiftOut, traceAppend, hh, setLink]

/-- The completion step that leaves the link idle (R177). -/
theorem completionStep_last {b : Byte} {s : State} (hf : s.faults = []) (hs : s.link.shift = some b)
    (hh : s.link.hold = none) :
    completionStep s = setLink { s.link with
      trace := s.link.trace ++ [.sent s.link.mode b], shift := none, txc := true } s := by
  simp [completionStep, hs, showOnWire_clean hf, shiftOut, traceAppend, hh, setLink]

theorem completionStep_idle {s : State} (hs : s.link.shift = none) : completionStep s = s := by
  simp [completionStep, hs]

/-- The abandon step where it is enabled (R181). -/
theorem abandonStep_disabled {s : State} (hf : s.faults = []) (he : s.link.en = false) (hs : s.link.shift ≠ none) :
    abandonStep s = setLink { s.link with trace := s.link.trace ++ [.cut], shift := none, hold := none } s := by
  obtain ⟨x, hx⟩ := Option.ne_none_iff_exists'.1 hs
  simp [abandonStep, he, hx, showOnWire_clean hf, dropBytes, traceAppend, setLink]

theorem abandonStep_not_enabled {s : State} (h : s.link.en = true ∨ s.link.shift = none) : abandonStep s = s := by
  rcases h with h | h <;> simp [abandonStep, h]

/-! ### Marks -/

/-- A fault once recorded stays recorded (spec/60_exceptions.md R207). -/
theorem mem_insertFault {c d : FaultCode} {l : List FaultCode} :
    d ∈ insertFault c l ↔ d = c ∨ d ∈ l := by
  induction l with
  | nil => simp [insertFault]
  | cons x xs ih =>
    unfold insertFault
    split
    · simp
    · split
      · subst_vars; simp
      · simp only [List.mem_cons, ih]; tauto

/-! ### Handler entry and return (spec/60_exceptions.md R210, R211) -/

@[simp] theorem enterHandler_sr (s : State) : enterHandler .sr s = s := rfl

theorem enterHandler_tc (s : State) : enterHandler .tc s = setLink { s.link with txc := false } s := rfl

@[simp] theorem leaveHandler_eq (s : State) : leaveHandler s = s := rfl

end Sys2Proof.Machine
end

