-- ==== Sys2Proof/Laws/PerInstr.lean ====
section
/-! SUPPORT. For every instruction, a fact about its syntax: the word it encodes to matches the mask and the pattern of its
row in spec/opcode_table.json. -/

namespace Sys2Proof.Laws.TableRow

/-- The word on the port `p` has the bits `pattern` under `mask`. -/
def matchesRow (p : PortWord) (mask pattern : Nat) : Prop :=
  match p with
  | .command w => w &&& BitVec.ofNat 32 mask = BitVec.ofNat 32 pattern
  | .delivery w => w &&& BitVec.ofNat 4 mask = BitVec.ofNat 4 pattern
  | .action w => w &&& BitVec.ofNat 11 mask = BitVec.ofNat 11 pattern

/-- The instruction's word matches its row of the table. -/
def Statement (i : Instr) : Prop :=
  match i with
  | .init => matchesRow (encode i) 0xFFFFFFFF 0x10000000
  | .write _ _ => matchesRow (encode i) 0xF0000000 0x20000000
  | .read _ => matchesRow (encode i) 0xF000FFFF 0x30000000
  | .setcount _ => matchesRow (encode i) 0xF000FFFF 0x40000000
  | .bufrd _ => matchesRow (encode i) 0xF000FFFF 0x50000000
  | .bufwr _ _ => matchesRow (encode i) 0xF000FF00 0x60000000
  | .term => matchesRow (encode i) 0xFFFFFFFF 0x70000000
  | .sr => matchesRow (encode i) 0b1101 0b0101
  | .tc => matchesRow (encode i) 0b1110 0b1010
  | .linkEnable _ => matchesRow (encode i) 0x7FE 0x100
  | .linkConfigure _ => matchesRow (encode i) 0x7FC 0x200
  | .linkSend _ => matchesRow (encode i) 0x700 0x300
  | .linkSelect _ => matchesRow (encode i) 0x7FC 0x400

/-- The opcode of a command word stands alone under its mask. -/
theorem commandWord_op (op : BitVec 4) (a : BitVec 12) (b : BitVec 16) :
    commandWord op a b &&& 0xF0000000#32 = commandWord op 0 0 := by
  refine BitVec.eq_of_getLsbD_eq fun i hi => ?_
  rw [BitVec.getLsbD_and, commandWord_getLsbD, commandWord_getLsbD]
  interval_cases i <;> simp

theorem commandWord_opB (op : BitVec 4) (a : BitVec 12) :
    commandWord op a 0 &&& 0xF000FFFF#32 = commandWord op 0 0 := by
  refine BitVec.eq_of_getLsbD_eq fun i hi => ?_
  rw [BitVec.getLsbD_and, commandWord_getLsbD, commandWord_getLsbD]
  interval_cases i <;> simp

theorem commandWord_opData (op : BitVec 4) (a : BitVec 12) (d : Byte) :
    commandWord op a (d.setWidth 16) &&& 0xF000FF00#32 = commandWord op 0 0 := by
  refine BitVec.eq_of_getLsbD_eq fun i hi => ?_
  rw [BitVec.getLsbD_and, commandWord_getLsbD, commandWord_getLsbD]
  interval_cases i <;> simp

theorem actionWord_kind (k : BitVec 3) (p : Byte) : actionWord k p &&& 0x700#11 = actionWord k 0 := by
  refine BitVec.eq_of_getLsbD_eq fun i hi => ?_
  rw [BitVec.getLsbD_and, actionWord_getLsbD, actionWord_getLsbD]
  interval_cases i <;> simp

theorem init : Statement .init := rfl

theorem write (ch v : Int) : Statement (.write ch v) :=
  (commandWord_op 0x2#4 (BitVec.ofInt 12 ch) (BitVec.ofInt 16 v)).trans (by decide)

theorem read (ch : Int) : Statement (.read ch) :=
  (commandWord_opB 0x3#4 (BitVec.ofInt 12 ch)).trans (by decide)

theorem setcount (n : Int) : Statement (.setcount n) :=
  (commandWord_opB 0x4#4 (BitVec.ofInt 12 n)).trans (by decide)

theorem bufrd (idx : Nat) : Statement (.bufrd idx) :=
  (commandWord_opB 0x5#4 (BitVec.ofNat 12 idx)).trans (by decide)

theorem bufwr (idx : Nat) (d : Byte) : Statement (.bufwr idx d) :=
  (commandWord_opData 0x6#4 (BitVec.ofNat 12 idx) d).trans (by decide)

theorem term : Statement .term := rfl

theorem sr : Statement .sr := rfl

theorem tc : Statement .tc := rfl

theorem linkEnable (e : Bool) : Statement (.linkEnable e) := by cases e <;> rfl

theorem linkConfigure (m : WireMode) : Statement (.linkConfigure m) := by cases m <;> rfl

theorem linkSend (b : Byte) : Statement (.linkSend b) :=
  (actionWord_kind 0b011#3 b).trans (by decide)

theorem linkSelect (t : Trigger) : Statement (.linkSelect t) := by cases t <;> rfl

end Sys2Proof.Laws.TableRow
end

