-- ==== Sys2Proof/Laws/Step.lean ====
section
/-! SUPPORT. What a step can do, said once: the slot that is due, and what each agent brings. -/

namespace Sys2Proof.Machine

/-! ### Runs -/

theorem runSteps_zero (s : State) : Safety.runSteps 0 s = .next s := rfl

theorem runSteps_next {k : Nat} {s t : State} (h : step s = .next t) :
    Safety.runSteps (k + 1) s = Safety.runSteps k t := by
  simp [Safety.runSteps, h]

/-! ### One step -/

theorem nextSlot_scheduled {q : Slot} {rest : List Slot} {s : State} (h : s.schedule = q :: rest) :
    nextSlot s = (q, setSchedule rest s) := by
  simp [nextSlot, h]

/-- Taking a slot changes the schedule or the free counter and nothing else. -/
theorem nextSlot_state (s : State) :
    (∃ rest, (nextSlot s).2 = setSchedule rest s) ∨ (nextSlot s).2 = setFreeCount (s.freeCount + 1) s := by
  unfold nextSlot
  split
  · exact .inl ⟨_, rfl⟩
  · exact .inr rfl

theorem fetch_scheduled {q : Slot} {rest : List Slot} {s : State} (h : s.schedule = q :: rest) :
    fetch s = slotFetch q (setSchedule rest s) := by
  simp [fetch, nextSlot_scheduled h]

/-- Everything a step can do from a state whose due slot has been taken. -/
theorem step_eq (s : State) :
    step s = match slotFetch (nextSlot s).1 (nextSlot s).2 with
      | .run i t => exec i t
      | .done t => .next t
      | .stop r => .refused r := rfl

@[simp] theorem deliver_sr (s : State) : deliver .sr s = s := rfl

@[simp] theorem deliver_tc (s : State) : deliver .tc s = enterHandler .tc s := rfl

/-- A slot whose agent is not enabled brings no change (spec/20_memory.md R58; log entry 4). -/
theorem slotFetch_not_enabled {q : Slot} {s : State} (h : enabled q s = false) : slotFetch q s = .done s := by
  cases q with
  | host =>
    simp only [enabled] at h
    simp only [slotFetch, hostFetch]
    split
    · rfl
    · split <;> simp_all
  | core =>
    simp only [enabled] at h
    simp only [slotFetch, coreFetch]
    split <;> simp_all
  | complete => simp_all [enabled, slotFetch, completionStep]
  | abandon =>
    simp only [enabled] at h
    simp [slotFetch, abandonStep, h]
  | action => simp_all [enabled, slotFetch, actionFetch]

/-- The core is enabled exactly when the trigger selects a notification whose line is high (spec/60_exceptions.md R202). -/
theorem enabled_core {s : State} : enabled .core s = true ↔
    (s.trigger = .sr ∧ srq s.link = true) ∨ (s.trigger = .tc ∧ tcq s.link = true) := by
  rw [← decodeDelivery_sr, ← decodeDelivery_tc]
  rcases decodeDelivery_cases (deliveryWord s) with h | h | h <;> simp [enabled, h]

/-- A step of a run takes the slot that is due, with the new words on the port. -/
theorem step_offer (q : Slot) (ws : List CommandWord) (s : State) :
    step (offer q ws s) = match slotFetch q (setPort (s.port ++ ws) (setSchedule [] s)) with
      | .run i t => exec i t
      | .done t => .next t
      | .stop r => .refused r := rfl

/-- Everything a slot can bring when nothing waits on the action port. -/
theorem slotFetch_cases {q : Slot} {u : State} (ha : u.actionPort = []) :
    (slotFetch q u = .done u) ∨
    (∃ w ws r, q = .host ∧ u.port = w :: ws ∧ decodeCommand w = .refused r ∧
      slotFetch q u = .done (refuse r (setPort ws u))) ∨
    (∃ w ws i, q = .host ∧ u.port = w :: ws ∧ decodeCommand w = .instr i ∧ held i u = false ∧
      slotFetch q u = .run i (setPort ws u)) ∨
    (q = .core ∧ u.trigger = .sr ∧ srq u.link = true ∧ slotFetch q u = .run .sr u) ∨
    (q = .core ∧ u.trigger = .tc ∧ tcq u.link = true ∧ slotFetch q u = .run .tc (enterHandler .tc u)) ∨
    (q = .complete ∧ slotFetch q u = .done (completionStep u)) ∨
    (q = .abandon ∧ slotFetch q u = .done (abandonStep u)) := by
  cases q with
  | host =>
    cases hp : u.port with
    | nil => exact .inl (by simp [slotFetch, hostFetch, hp])
    | cons w ws =>
      cases hd : decodeCommand w with
      | instr i =>
        cases hh : held i u with
        | true => exact .inl (by simp [slotFetch, hostFetch, hp, hd, hh])
        | false =>
          exact .inr (.inr (.inl ⟨w, ws, i, rfl, rfl, hd, hh, by simp [slotFetch, hostFetch, hp, hd, hh]⟩))
      | refused r => exact .inr (.inl ⟨w, ws, r, rfl, rfl, hd, by simp [slotFetch, hostFetch, hp, hd]⟩)
      | notDelivered => exact .inl (by simp [slotFetch, hostFetch, hp, hd])
      | undefinedAction => exact .inl (by simp [slotFetch, hostFetch, hp, hd])
  | core =>
    rcases decodeDelivery_cases (deliveryWord u) with h | h | h
    · have := (decodeDelivery_sr u).1 h
      exact .inr (.inr (.inr (.inl ⟨rfl, this.1, this.2, by simp [slotFetch, coreFetch, h]⟩)))
    · have := (decodeDelivery_tc u).1 h
      exact .inr (.inr (.inr (.inr (.inl ⟨rfl, this.1, this.2, by simp [slotFetch, coreFetch, h]⟩))))
    · exact .inl (by simp [slotFetch, coreFetch, h])
  | complete => exact .inr (.inr (.inr (.inr (.inr (.inl ⟨rfl, rfl⟩)))))
  | abandon => exact .inr (.inr (.inr (.inr (.inr (.inr ⟨rfl, rfl⟩)))))
  | action => exact .inl (by simp [slotFetch, actionFetch, ha])

end Sys2Proof.Machine
end

