-- ==== Sys2Proof/Machine/Line.lean ====
section
/-! DEFINITION. What a link mode means on the line (spec/42_link_interface.md R184, spec/70_reset_and_hazards.md R234, R237,
R242, R243, R245, R246). No step reads this file ("No rule of the model depends on them", R184). The start bit, the bit order and the line
levels, and the limits of the DMX-512 standard, are the spec's own general knowledge (93_implementation_defined.md G1 to G3, G5; log
entry 15). -/

namespace Sys2Proof.Machine

/-- Speed and framing of a mode (R9, R184). -/
def lineSettings : WireMode → Config.LineSettings
  | .brk => Config.breakSettings
  | .dat => Config.dataSettings

/-- The bits a parity adds. -/
def parityBits : Config.Parity → Nat
  | .none => 0
  | .even => 1

/-- Bits per byte on the wire: start, data, parity, stop (R184). -/
def frameBits (m : WireMode) : Nat :=
  1 + (lineSettings m).dataBits + parityBits (lineSettings m).parity + (lineSettings m).stopBits

/-- The bit time in microseconds (R242). -/
def bitMicros (m : WireMode) : Nat := 1000000 / (lineSettings m).baud

/-- The byte time in microseconds (R242). -/
def byteMicros (m : WireMode) : Nat := frameBits m * bitMicros m

/-- The least cycle time with `n` data bytes, in microseconds: the break byte, the start code, the data (R243). -/
def cycleMicros (n : Nat) : Nat := byteMicros .brk + byteMicros .dat + byteMicros .dat * n

/-- The bits of a byte, least significant first (R245). -/
def dataLevels (b : Byte) : List Bool := (List.range 8).map b.getLsbD

/-- The even parity bit of a byte (R245). -/
def evenParity (b : Byte) : Bool := (dataLevels b).foldl Bool.xor false

/-- The levels of one byte on the line, one entry a bit time, `true` high: start bit low, data, parity, stop bits high (R245). -/
def lineLevels (m : WireMode) (b : Byte) : List Bool :=
  let parity := match (lineSettings m).parity with
    | .none => []
    | .even => [evenParity b]
  [false] ++ dataLevels b ++ parity ++ List.replicate (lineSettings m).stopBits true

/-- The longest an INIT issued after TERM is held: two byte times of the mode in force (R234). -/
def holdMicros (m : WireMode) : Nat := 2 * byteMicros m

/-- How soon an SR handler must run for data bytes to go out back-to-back: one data-byte time (R237). -/
def srDeadlineMicros : Nat := byteMicros .dat

/-- The break: how long the line is low while the break byte goes out (R245). -/
def breakMicros : Nat := ((lineLevels .brk Config.breakByte).takeWhile not).length * bitMicros .brk

/-- The mark-after-break: the break byte's stop bit, and the latency of the TC handler in `Break` (R245, R246). -/
def markMicros (latency : Nat) : Nat := (lineSettings .brk).stopBits * bitMicros .brk + latency

/-- The published transmitter limits on break, mark-after-break and break-to-break time, for a cycle of `n` data bytes whose
latencies add up to `total`, `latency` of it at the TC in `Break` (R246). -/
def meetsDmxLimits (n latency total : Nat) : Bool :=
  decide (92 ≤ breakMicros) && decide (12 ≤ markMicros latency) && decide (1204 ≤ cycleMicros n + total)

end Sys2Proof.Machine
end

