-- ==== Sys2Proof/Tests/Slice0.lean ====
section
/-! SUPPORT. Tests. Expected results come from the spec: the worked encodings of spec/30_encoding.md R84 and the vectors V1 to
V10 and programs of spec/95_test_vectors.md, each named where it is used. The last part holds a witness for every obligation
that has hypotheses. -/

namespace Sys2Proof.Tests

open Sys2Proof Sys2Proof.Machine Sys2Proof.Safety

/-! ## WellFormed -/

theorem test_wf_write_channel_low : (Instr.write (-2049) 0).wf = false := by decide
theorem test_wf_write_channel_high : (Instr.write 2048 0).wf = false := by decide
theorem test_wf_write_value_low : (Instr.write 1 (-32769)).wf = false := by decide
theorem test_wf_write_value_high : (Instr.write 1 32768).wf = false := by decide
theorem test_wf_read : (Instr.read 2048).wf = false ∧ (Instr.read (-2049)).wf = false := by decide
theorem test_wf_setcount : (Instr.setcount 2048).wf = false ∧ (Instr.setcount (-2049)).wf = false := by decide
theorem test_wf_bufrd : (Instr.bufrd 513).wf = false ∧ (Instr.bufrd 512).wf = true := by decide
theorem test_wf_bufwr : (Instr.bufwr 513 0).wf = false ∧ (Instr.bufwr 512 0).wf = true := by decide

/-! ## The parameters (spec/00_scope.md R8) -/

theorem test_parameters_in_range :
    1 ≤ Config.defaultCount ∧ Config.defaultCount ≤ Config.capacity ∧ Config.capacity ≤ 2047 ∧
      Config.capacity + 1 < 2 ^ 10 ∧ Config.cmdWidth = 32 := by decide

/-! ## Decoding: words written out from the spec's encodings, a constructor at a time -/

/-- R74: opcode 0x1, all else zero. -/
theorem test_decode_init : decodeCommand 0b0001_000000000000_0000000000000000#32 = .instr .init := by decide
/-- R73: `ch` in bits 27..16, `v` in bits 15..0 (R84, V1). -/
theorem test_decode_write :
    decodeCommand 0b0010_000000000101_0000000000010100#32 = .instr (.write 5 20) ∧
    decodeCommand 0x2800FFFF#32 = .instr (.write (-2048) (-1)) ∧
    decodeCommand 0x2FFF7FFF#32 = .instr (.write (-1) 32767) := by decide
theorem test_decode_read :
    decodeCommand 0b0011_001000000001_0000000000000000#32 = .instr (.read 513) ∧
    decodeCommand 0x37FF0000#32 = .instr (.read 2047) ∧
    decodeCommand 0x38000000#32 = .instr (.read (-2048)) := by decide
theorem test_decode_setcount :
    decodeCommand 0b0100_000000001010_0000000000000000#32 = .instr (.setcount 10) ∧
    decodeCommand 0x48000000#32 = .instr (.setcount (-2048)) := by decide
/-- R73: `idx` is unsigned. -/
theorem test_decode_bufrd :
    decodeCommand 0b0101_001000000000_0000000000000000#32 = .instr (.bufrd 512) ∧
    decodeCommand 0x5FFF0000#32 = .refused .rawIndexRange := by decide
theorem test_decode_bufwr :
    decodeCommand 0b0110_001000000000_00000000_10101011#32 = .instr (.bufwr 512 0xAB#8) ∧
    decodeCommand 0x600100FF#32 = .instr (.bufwr 1 0xFF#8) := by decide
theorem test_decode_term : decodeCommand 0b0111_000000000000_0000000000000000#32 = .instr .term := by decide
/-- R79: `01x1`. -/
theorem test_decode_sr : decodeDelivery 0b01_0_1#4 = .instr .sr ∧ decodeDelivery 0b01_1_1#4 = .instr .sr := by decide
/-- R79: `101x`. -/
theorem test_decode_tc : decodeDelivery 0b10_1_0#4 = .instr .tc ∧ decodeDelivery 0b10_1_1#4 = .instr .tc := by decide
/-- R79: every other delivery word delivers nothing. -/
theorem test_decode_not_delivered :
    [0b0000#4, 0b0001#4, 0b0010#4, 0b0011#4, 0b0100#4, 0b0110#4, 0b1000#4, 0b1001#4, 0b1100#4, 0b1101#4, 0b1110#4,
      0b1111#4].all (fun w => decodeDelivery w == .notDelivered) = true := by decide
/-- R80: kind 1, the enable bit in P[0]. -/
theorem test_decode_link_enable :
    decodeAction 0b001_00000000#11 = .instr (.linkEnable false) ∧
    decodeAction 0b001_00000001#11 = .instr (.linkEnable true) ∧
    decodeAction 0b001_00000010#11 = .undefinedAction := by decide
theorem test_decode_link_configure :
    decodeAction 0b010_00000001#11 = .instr (.linkConfigure .brk) ∧
    decodeAction 0b010_00000010#11 = .instr (.linkConfigure .dat) ∧
    decodeAction 0b010_00000000#11 = .undefinedAction ∧
    decodeAction 0b010_00000011#11 = .undefinedAction := by decide
theorem test_decode_link_send : decodeAction 0b011_10111011#11 = .instr (.linkSend 0xBB#8) := by decide
theorem test_decode_link_select :
    decodeAction 0b100_00000000#11 = .instr (.linkSelect .none) ∧
    decodeAction 0b100_00000001#11 = .instr (.linkSelect .sr) ∧
    decodeAction 0b100_00000010#11 = .instr (.linkSelect .tc) ∧
    decodeAction 0b100_00000011#11 = .undefinedAction := by decide

/-- V1: the refused words. -/
theorem test_decode_refused :
    [0x1FFFFFFF#32, 0x10010000#32, 0x70000001#32, 0x7FFFFFFF#32, 0x30000001#32, 0x4001FF00#32, 0x5201FFFF#32,
      0x60010100#32].all (fun w => decodeCommand w == .refused .nonzeroReservedBits) = true ∧
    [0x90000000#32, 0xF0000000#32, 0x0000FFFF#32].all (fun w => decodeCommand w == .refused .reservedOpcode) = true ∧
    [0x52010000#32, 0x5FFF0000#32, 0x6FFF00FF#32].all (fun w => decodeCommand w == .refused .rawIndexRange) = true := by
  decide

/-- R54: 0x2001000A goes as 0A, 00, 01, 20. -/
theorem test_bus_bytes :
    bytesOfCommand 0x2001000A#32 = [0x0A#8, 0x00#8, 0x01#8, 0x20#8] ∧
    decodeBytes [0x0A#8, 0x00#8, 0x01#8, 0x20#8, 0x77#8] = some (.instr (.write 1 10), [0x77#8]) ∧
    decodeBytes [0x0A#8, 0x00#8, 0x01#8] = none := by decide

/-- The host's table words (spec/opcode_table.json): the row's width names the port. -/
theorem test_table_words :
    decodeTableWord 32 0x10000000 = some .init ∧ decodeTableWord 8 0b0101 = some .sr ∧
    decodeTableWord 8 0b1010 = some .tc ∧ decodeTableWord 16 0x3BB = some (.linkSend 0xBB#8) ∧
    decodeTableWord 16 0x003 = none ∧ decodeTableWord 32 0 = none := by decide

/-! ## Small states -/

/-- What a next state holds; `false` for a fault or a refusal. -/
def ends (r : Result) (p : State → Bool) : Bool :=
  match r with
  | .next t => p t
  | .fault _ => false
  | .refused _ => false

/-- A link from its registers, its trace empty. -/
def lk (en : Bool) (mode : Option WireMode) (shift hold : Option Byte) (txc : Bool) : Link :=
  { en := en, mode := mode, hold := hold, shift := shift, txc := txc, trace := [] }

/-- `S0` of spec/95_test_vectors.md. -/
abbrev s0 : State := State.reset

/-- `I0` of spec/95_test_vectors.md. -/
def i0 : State :=
  { State.reset with phase := .brk, trigger := .tc, link := lk true (some .brk) (some 0x00#8) none false }

/-- A state in `Data(i)`. -/
def dataState (i snap : Count) (t : Trigger) (values : Memory) (l : Link) : State :=
  { State.reset with phase := .data, index := i, snap := snap, trigger := t, values := values, link := l }

/-- One host step with a word on the port. -/
def issue (w : CommandWord) (s : State) : Result := step { s with port := [w], schedule := [.host] }

/-- One step of a slot. -/
def take (q : Slot) (s : State) : Result := step { s with schedule := [q] }

/-! ## Host commands (V2 to V7) -/

theorem test_write_raises :
    ends (issue 0x20210005#32 i0) (fun t => decide (t = { i0 with values := [(33, 0x05#8)], activeCount := 33#10 })) = true := by
  decide
/-- E1 and V2: the clamps of both operands. -/
theorem test_write_clamps :
    ends (issue 0x2FFFFFFB#32 { i0 with values := [(1, 0x07#8)] }) (fun t => decide (t = i0)) = true ∧
    ends (issue 0x22580007#32 i0) (fun t => decide (t.values = [(512, 0x07#8)]) && decide (t.activeCount = 512#10)) = true := by
  decide
theorem test_write_value_above :
    ends (issue 0x20010100#32 i0) (fun t => decide (t.values = [(1, 0xFF#8)]) && decide (t.activeCount = 32#10)) = true := by
  decide
/-- V3. -/
theorem test_read_clamps :
    ends (issue 0x3FF90000#32 { i0 with values := [(1, 0x0A#8)] }) (fun t => decide (t.rdata = 0x0A#8)) = true ∧
    ends (issue 0x37FF0000#32 { i0 with values := [(512, 0x03#8)] }) (fun t => decide (t.rdata = 0x03#8)) = true := by decide
/-- V4. -/
theorem test_setcount :
    ends (issue 0x48000000#32 i0) (fun t => decide (t = { i0 with activeCount := 1#10 })) = true ∧
    ends (issue 0x43E80000#32 i0) (fun t => decide (t = { i0 with activeCount := 512#10 })) = true := by decide
/-- V5. -/
theorem test_bufrd :
    ends (issue 0x52000000#32 { i0 with values := [(512, 0xAB#8)] }) (fun t => decide (t.rdata = 0xAB#8)) = true ∧
    ends (issue 0x50000000#32 { i0 with rdata := 0x11#8 }) (fun t => decide (t.rdata = 0x00#8)) = true := by decide
theorem test_bufwr :
    ends (issue 0x620000AB#32 i0) (fun t => decide (t = { i0 with values := [(512, 0xAB#8)] })) = true ∧
    ends (issue 0x60000055#32 i0) (fun t => decide (t = i0)) = true := by decide
/-- V1, V5: a refused word changes only the refusal mark. -/
theorem test_refused_words :
    ends (issue 0x62010000#32 i0) (fun t => decide (t = { i0 with refused := true, refusals := [.rawIndexRange] })) = true ∧
    ends (issue 0x90000000#32 i0) (fun t => decide (t = { i0 with refused := true, refusals := [.reservedOpcode] })) = true := by
  decide
/-- V6: `INIT` from `S0` after writes gives `I0`. -/
theorem test_init :
    ends (issue 0x10000000#32 { s0 with values := [(5, 0x09#8)], activeCount := 3#10 }) (fun t => decide (t = i0)) = true := by
  decide
theorem test_init_while_active :
    ends (issue 0x10000000#32 i0) (fun t => decide (t = { i0 with refused := true, refusals := [.initWhileActive] })) = true := by
  decide
/-- V6: held while the link shifts the byte TERM left. -/
theorem test_init_held :
    ends (issue 0x10000000#32 { s0 with link := lk false (some .dat) (some 0x2A#8) none false })
      (fun t => decide (t = { s0 with
        link := lk false (some .dat) (some 0x2A#8) none false, port := [0x10000000#32] })) = true := by decide
/-- V7. -/
theorem test_term :
    ends (issue 0x70000000#32 i0) (fun t => decide (t =
      { i0 with phase := .idle, trigger := .none, link := lk false (some .brk) (some 0x00#8) none false })) = true ∧
    ends (issue 0x70000000#32 s0) (fun t => decide (t = s0)) = true := by decide

/-! ## Notifications (V8, V9) -/

/-- V8: the last data byte goes to the holding register and switches the trigger. -/
theorem test_sr_last :
    ends (take .core (dataState 3 3 .sr [(3, 0x1E#8)] (lk true (some .dat) (some 0x00#8) none false)))
      (fun t => decide (t = dataState 4 3 .tc [(3, 0x1E#8)] (lk true (some .dat) (some 0x00#8) (some 0x1E#8) false))) = true := by
  decide
/-- V8: `Data(512)` with `snap = 512` ends in `Data(513)`. -/
theorem test_sr_top :
    ends (take .core (dataState 512 512 .sr [(512, 0x01#8)] (lk true (some .dat) none none true)))
      (fun t => decide (t = dataState 513 512 .tc [(512, 0x01#8)] (lk true (some .dat) (some 0x01#8) none false))) = true := by
  decide
/-- V8 and V9: full, masked and busy slots leave all as it is. -/
theorem test_not_enabled :
    ends (take .core (dataState 2 3 .sr [] (lk true (some .dat) (some 0x04#8) (some 0x05#8) false)))
      (fun t => decide (t = dataState 2 3 .sr [] (lk true (some .dat) (some 0x04#8) (some 0x05#8) false))) = true ∧
    ends (take .core i0) (fun t => decide (t = i0)) = true := by decide
/-- V9: TC in `Break`. -/
theorem test_tc_break :
    ends (take .core { i0 with activeCount := 10#10, link := lk true (some .brk) none none true })
      (fun t => decide (t = { i0 with
        activeCount := 10#10, snap := 10#10, phase := .startCode
        link := lk true (some .dat) (some 0x00#8) none false })) = true := by decide
/-- V9: TC in `StartCode`, and in the drain wait `Data(4)` with `snap = 3`. -/
theorem test_tc_start_and_drain :
    ends (take .core { i0 with phase := .startCode, snap := 10#10, link := lk true (some .dat) none none true })
      (fun t => decide (t = dataState 1 10 .sr [] (lk true (some .dat) none none false))) = true ∧
    ends (take .core (dataState 4 3 .tc [] (lk true (some .dat) none none true)))
      (fun t => decide (t = { dataState 4 3 .tc [] (lk true (some .brk) (some 0x00#8) none false) with phase := .brk })) = true := by
  decide
/-- R140, R180: TC delivered in a phase that the core never awaits it in clears `L.txc` and does nothing else. -/
theorem test_delivered_tc_clears_the_flag :
    ends (take .core { dataState 2 3 .tc [] (lk true (some .dat) none none true) with rdata := 0x11#8 })
      (fun t => decide (t = { dataState 2 3 .tc [] (lk true (some .dat) none none false) with rdata := 0x11#8 })) = true ∧
    ends (take .core (dataState 2 3 .sr [] (lk true (some .dat) (some 0x11#8) (some 0x22#8) true)))
      (fun t => t.link.txc) = true := by decide
/-- V8, V9: the pure-function checks: SR in `Break`, TC in `Data(2)` with `snap = 3`. -/
theorem test_handlers_elsewhere :
    ends (exec .sr i0) (fun t => decide (t = i0)) = true ∧
    ends (exec .tc (dataState 2 3 .sr [] (lk true (some .dat) none none true)))
      (fun t => decide (t = dataState 2 3 .sr [] (lk true (some .dat) none none true))) = true := by decide

/-! ## The link on its own (V10) -/

/-- A reset state with this link. -/
def onLink (l : Link) : State := { State.reset with link := l }

theorem test_link_send :
    ends (exec (.linkSend 0x11#8) (onLink (lk true none none none true)))
      (fun t => decide (t.link = lk true none (some 0x11#8) none false) && srq t.link && !tcq t.link) = true ∧
    ends (exec (.linkSend 0x22#8) (onLink (lk true none (some 0x11#8) none false)))
      (fun t => decide (t.link = lk true none (some 0x11#8) (some 0x22#8) false) && !srq t.link) = true := by decide
theorem test_link_send_faults :
    ends (exec (.linkSend 0x33#8) (onLink (lk true none (some 0x11#8) (some 0x22#8) false)))
      (fun t => decide (t = { onLink (lk true none (some 0x11#8) (some 0x22#8) false) with
        faults := [.overrun], faultRecords := [.overrun 0x33#8] })) = true ∧
    ends (exec (.linkSend 0x44#8) (onLink (lk false none none none false)))
      (fun t => decide (t = { onLink (lk false none none none false) with
        faults := [.sendDisabled], faultRecords := [.sendDisabled 0x44#8] })) = true := by decide
theorem test_link_configure :
    ends (exec (.linkConfigure .brk) (onLink (lk true (some .dat) (some 0x11#8) none false)))
      (fun t => decide (t.link.mode = some .brk) && decide (t.link.trace = [.corrupt]) &&
        decide (t.faults = [.lineCorrupt])) = true ∧
    ends (exec (.linkConfigure .brk) (onLink (lk false none none none false)))
      (fun t => decide (t = onLink (lk false (some .brk) none none false))) = true := by decide
theorem test_link_enable_select :
    ends (exec (.linkEnable true) s0) (fun t => decide (t = onLink (lk true none none none false))) = true ∧
    ends (exec (.linkSelect .tc) s0) (fun t => decide (t = { s0 with trigger := .tc })) = true := by decide
theorem test_completion :
    ends (take .complete (onLink (lk true (some .dat) (some 0x11#8) (some 0x22#8) false)))
      (fun t => decide (t = onLink { lk true (some .dat) (some 0x22#8) none false with
        trace := [.sent (some .dat) 0x11#8] })) = true ∧
    ends (take .complete (onLink (lk true (some .dat) (some 0x22#8) none false)))
      (fun t => decide (t.link.trace = [.sent (some .dat) 0x22#8]) && tcq t.link) = true := by decide
theorem test_abandon :
    ends (take .abandon (onLink (lk false none (some 0x11#8) (some 0x22#8) false)))
      (fun t => decide (t = onLink { lk false none none none false with trace := [.cut] })) = true ∧
    ends (take .abandon (onLink (lk true none (some 0x11#8) none false)))
      (fun t => decide (t = onLink (lk true none (some 0x11#8) none false))) = true := by decide

/-! ## The line (spec/70_reset_and_hazards.md R242, R243, R245) -/

theorem test_byte_times : byteMicros .brk = 110 ∧ byteMicros .dat = 44 := by decide
theorem test_cycle_times : cycleMicros 1 = 198 ∧ cycleMicros 32 = 1562 ∧ cycleMicros 512 = 22682 := by decide
/-- R245: the break byte holds the line low for ten bit times, 100 microseconds, before its stop bit. -/
theorem test_break_levels :
    lineLevels .brk Config.breakByte = List.replicate 10 false ++ [true] ∧ breakMicros = 100 := by decide
/-- R234, R237 and R246: the hold bounds, the handler deadline, the 2 microseconds the mark needs, the shortest long cycle. -/
theorem test_line_bounds :
    holdMicros .brk = 220 ∧ holdMicros .dat = 88 ∧ srDeadlineMicros = 44 ∧ markMicros 0 = 10 ∧
      meetsDmxLimits 24 2 2 = true ∧ meetsDmxLimits 24 1 1 = false ∧ meetsDmxLimits 23 2 2 = false := by decide

/-! ## A placed word is run by the very next step -/

theorem test_placed_words_run :
    step (State.reset.withFetchWord 32 0x2001000A) = exec (.write 1 10) State.reset ∧
    step (State.reset.withFetchWord 16 0x3BB) = exec (.linkSend 0xBB#8) State.reset ∧
    step (State.reset.withFetchWord 8 0b1010) =
      exec .tc { State.reset with trigger := .tc, link := lk true none none none false } := ⟨rfl, rfl, rfl⟩

/-! ## Witnesses: each obligation's hypotheses, met together by a concrete state and operands -/

theorem witness_DecodeOfEncodeIsTheInstruction :
    (Instr.write (-2048) 32767).wf = true ∧ (Instr.write 2047 (-32768)).wf = true ∧ (Instr.bufwr 512 0xFF#8).wf = true := by
  decide

theorem witness_AcceptedCommandWordEncodesBack : decodeCommand 0x28007FFF#32 = .instr (.write (-2048) 32767) := by decide

theorem witness_ReservedOpcodesAreRefused :
    ∃ (w1 w2 : CommandWord) (s1 s2 : State), w1.toNat / 2 ^ 28 = 0 ∧ 8 ≤ w2.toNat / 2 ^ 28 ∧
      s1.schedule = .host :: [] ∧ s1.port = w1 :: [] ∧ s2.schedule = .host :: [] ∧ s2.port = w2 :: [] :=
  ⟨0x0FFFFFFF#32, 0x80000000#32, { i0 with schedule := [.host], port := [0x0FFFFFFF#32] },
    { i0 with schedule := [.host], port := [0x80000000#32] }, by decide⟩

theorem witness_NonzeroReservedBitsAreRefused :
    ∃ (w : CommandWord) (s : State), w &&& mustBeZero (w.toNat / 2 ^ 28) ≠ 0#32 ∧
      s.schedule = .host :: [] ∧ s.port = w :: [] :=
  ⟨0x62010100#32, { i0 with schedule := [.host], port := [0x62010100#32] }, by decide⟩

theorem witness_RawIndexBeyondCapacityIsRefused :
    ∃ (w : CommandWord) (s : State), decodeCommand w = .refused .rawIndexRange ∧
      s.schedule = .host :: [] ∧ s.port = w :: [] ∧
      w.toNat / 2 ^ 28 = 6 ∧ w.toNat % 2 ^ 16 < 2 ^ 8 ∧ 512 < w.toNat / 2 ^ 16 % 2 ^ 12 :=
  ⟨0x620100FF#32, { i0 with schedule := [.host], port := [0x620100FF#32] }, by decide⟩

theorem witness_CommandBytesGoLeastSignificantFirst :
    (0xFEDCBA98#32).toNat =
      (0x98#8).toNat + 2 ^ 8 * (0xBA#8).toNat + 2 ^ 16 * (0xDC#8).toNat + 2 ^ 24 * (0xFE#8).toNat := by decide

/-- An INIT at a running cycle, an INIT at an idle link, and another command. -/
theorem witness_HostStepRunsTheDecodedCommand :
    [({ i0 with schedule := [.host], port := [0x10000000#32] }, 0x10000000#32, Instr.init),
      ({ s0 with schedule := [.host], port := [0x10000000#32] }, 0x10000000#32, Instr.init),
      ({ i0 with schedule := [.host], port := [0x620000AB#32] }, 0x620000AB#32, Instr.bufwr 512 0xAB#8)].all
      (fun x => decide (x.1.schedule = [.host]) && decide (x.1.port = [x.2.1]) && decide (decodeCommand x.2.1 = .instr x.2.2) &&
        decide (x.2.2 = .init → x.1.phase = .idle → x.1.link.shift = none ∧ x.1.link.hold = none)) = true := by decide

theorem witness_HeldInitStaysAtThePort :
    ∃ s : State, s.schedule = .host :: [] ∧ s.port = 0x10000000#32 :: [] ∧ s.phase = .idle ∧
      (s.link.shift ≠ none ∨ s.link.hold ≠ none) :=
  ⟨{ s0 with schedule := [.host], port := [0x10000000#32], link := lk false (some .dat) (some 0x2A#8) none false }, by decide⟩

theorem witness_CoreStepRunsTheSelectedHandler :
    ∃ s1 s2 s3 : State, s1.schedule = .core :: [] ∧ s2.schedule = .core :: [] ∧ s3.schedule = .core :: [] ∧
      (s1.trigger = .sr ∧ s1.link.en = true ∧ s1.link.hold = none) ∧
      (s2.trigger = .tc ∧ s2.link.en = true ∧ s2.link.txc = true ∧ s2.link.shift = none ∧ s2.link.hold = none) ∧
      ¬ (s3.trigger = .sr ∧ s3.link.en = true ∧ s3.link.hold = none) ∧
      ¬ (s3.trigger = .tc ∧ s3.link.en = true ∧ s3.link.txc = true ∧ s3.link.shift = none ∧ s3.link.hold = none) :=
  ⟨{ dataState 1 3 .sr [] (lk true (some .dat) none none true) with schedule := [.core] },
    { i0 with schedule := [.core], link := lk true (some .brk) none none true }, { i0 with schedule := [.core] }, by decide⟩

theorem witness_ActionStepRunsTheDecodedAction :
    ∃ (s1 s2 : State) (a1 a2 : ActionWord), s1.schedule = .action :: [] ∧ s1.actionPort = a1 :: [] ∧
      decodeAction a1 = .instr (.linkSend 0xBB#8) ∧ s2.schedule = .action :: [] ∧ s2.actionPort = a2 :: [] ∧
      decodeAction a2 = .undefinedAction :=
  ⟨{ s0 with schedule := [.action], actionPort := [0x3BB#11] }, { s0 with schedule := [.action], actionPort := [0x403#11] },
    0x3BB#11, 0x403#11, by decide⟩

theorem witness_EmptyScheduleTakesSomeSlot : State.reset.schedule = [] := by decide

theorem witness_CompletionStepShiftsOneByteOut :
    [some 0x22#8, none].all (fun h =>
      let s := { onLink (lk true (some .dat) (some 0x11#8) h false) with schedule := [.complete] }
      decide (s.schedule = .complete :: []) && decide (s.faults = []) && decide (s.link.shift = some 0x11#8) &&
        decide (s.link.hold = h)) = true := by decide

theorem witness_AbandonStepEmptiesADisabledLink :
    ∃ s : State, s.schedule = .abandon :: [] ∧ s.faults = [] ∧ s.link.en = false ∧ s.link.shift ≠ none :=
  ⟨{ onLink (lk false none (some 0x11#8) (some 0x22#8) false) with schedule := [.abandon] }, by decide⟩

theorem witness_ASlotThatIsNotEnabledChangesNothing :
    s0.link.shift = none ∧ (i0.link.en = true ∧ i0.link.shift ≠ none) ∧ s0.port = [] ∧ s0.actionPort = [] ∧
      ({ i0 with schedule := [.abandon] } : State).schedule = .abandon :: [] := by decide

theorem witness_WriteStoresAndRaisesTheCount :
    ({ i0 with values := [(1, 0x0A#8), (512, 0xFF#8)] } : State).values.wf = true := by decide

theorem witness_ReadReturnsTheClampedChannel :
    (((1 : Nat) : Int) = max 1 (min (-2048) 512)) ∧ (((1 : Nat) : Int) = max 1 (min 1 512)) ∧
    (((512 : Nat) : Int) = max 1 (min 512 512)) ∧ (((512 : Nat) : Int) = max 1 (min 2047 512)) := by decide

theorem witness_BufrdReadsTheRawIndex : 0 ≤ 512 ∧ 512 ≤ 512 ∧ 512 < 513 := by decide

theorem witness_ActionWordsAreThoseOfTheTable :
    decodeAction 0x402#11 = .instr (.linkSelect .tc) ∧ (0x402#11).toNat = 0x402 := by decide

theorem witness_BufwrWritesTheRawIndex :
    i0.values.wf = true ∧ (1 ≤ 1 ∧ 1 ≤ 512) ∧ (1 ≤ 512 ∧ 512 ≤ 512) ∧ 512 < 513 := by decide

theorem witness_InitStartsTheCycle : s0.phase = .idle ∧ s0.link.shift = none ∧ s0.link.hold = none := by decide

theorem witness_ZeroFillIsTheLoopOfWrites :
    ({ i0 with values := [(1, 0x0A#8), (512, 0xFF#8)] } : State).values.wf = true := by decide

theorem witness_InitWhileActiveIsRefused : i0.phase ≠ .idle := by decide

theorem witness_TermStopsTheCycle : i0.phase ≠ .idle ∧ s0.phase = .idle := by decide

/-- The first byte of a frame, and its last. -/
theorem witness_SrSendsTheNextChannel :
    [(1#10, 1#10), (1#10, 512#10), (512#10, 512#10)].all (fun x =>
      let s := dataState x.1 x.2 .sr [] (lk true (some .dat) none none true)
      decide (s.phase = .data) && decide (1 ≤ s.index.toNat) && decide (s.index.toNat ≤ s.snap.toNat) &&
        decide (s.snap.toNat ≤ 512) && s.link.en && decide (s.link.hold = none)) = true := by decide

theorem witness_HandlersHaveNoEffectElsewhere :
    ∃ s1 s2 s3 : State, ¬ (s1.phase = .data ∧ 1 ≤ s1.index.toNat ∧ s1.index.toNat ≤ s1.snap.toNat) ∧ s2.phase = .idle ∧
      (s3.phase = .data ∧ s3.index.toNat ≠ s3.snap.toNat + 1) :=
  ⟨dataState 4 3 .tc [] (lk true (some .dat) none none true), s0,
    dataState 3 3 .sr [] (lk true (some .dat) none none true), by decide⟩

theorem witness_SrStopsBeyondTheBuffer :
    ∃ s : State, s.phase = .data ∧ 512 < s.index.toNat ∧ s.index.toNat ≤ s.snap.toNat :=
  ⟨dataState 513 513 .sr [] (lk true (some .dat) none none true), by decide⟩

/-- A state in `Break` whose break byte is out. -/
def breakOut : State := { i0 with link := lk true (some .brk) none none true }

/-- A state in the drain wait whose last byte is out. -/
def drained : State := dataState 4 3 .tc [] (lk true (some .dat) none none true)

theorem witness_TcInBreakSendsTheStartCode :
    breakOut.phase = .brk ∧ breakOut.link.en = true ∧ breakOut.link.shift = none ∧ breakOut.link.hold = none := by decide

/-- A state in `StartCode` whose start code is out. -/
def startCodeOut : State :=
  { i0 with phase := .startCode, snap := 10#10, link := lk true (some .dat) none none true }

theorem witness_TcInStartCodeBeginsTheData : startCodeOut.phase = .startCode := by decide

theorem witness_TcAfterTheLastByteStartsTheNextBreak :
    drained.phase = .data ∧ drained.index.toNat = drained.snap.toNat + 1 ∧ drained.link.en = true ∧
      drained.link.shift = none ∧ drained.link.hold = none := by decide

theorem witness_ADisabledLinkRequestsNothing :
    ∃ s : State, s.link.en = false ∧ s.schedule = .core :: [] :=
  ⟨{ s0 with trigger := .tc, schedule := [.core], link := lk false none none none true }, by decide⟩

theorem witness_ConfigureSetsTheModeOrCorrupts :
    (s0.link.shift = none ∧ s0.link.hold = none) ∧ (i0.link.shift ≠ none ∨ i0.link.hold ≠ none) := by decide

theorem witness_SendTakesOrDiscardsTheByte :
    (i0.link.en = true ∧ i0.link.hold = none) ∧ s0.link.en = false ∧
      (let l := lk true (some .dat) (some 0x11#8) (some 0x22#8) false; l.en = true ∧ l.hold ≠ none) := by decide

/-- `I0` meets the invariant, with any schedule. -/
theorem witness_BlockInv (q : List Slot) : BlockInv { i0 with schedule := q } :=
  ⟨by show CursorInv i0; decide, by show LinkInv i0; decide, rfl, rfl, rfl⟩

/-- `I0` shows its break byte. -/
theorem witness_FrameInv (q : List Slot) : FrameInv { i0 with schedule := q } := ⟨[], rfl⟩

theorem witness_EveryStepKeepsTheInvariant :
    ∃ t, BlockInv { i0 with schedule := [.complete] } ∧ step { i0 with schedule := [.complete] } = .next t :=
  ⟨_, witness_BlockInv _, rfl⟩

theorem witness_EveryReachableStateHasASuccessor : BlockInv { i0 with schedule := [] } := witness_BlockInv _

theorem witness_EveryStepKeepsTheFrameShape :
    ∃ t, BlockInv { i0 with schedule := [.complete] } ∧ FrameInv { i0 with schedule := [.complete] } ∧
      step { i0 with schedule := [.complete] } = .next t :=
  ⟨_, witness_BlockInv _, witness_FrameInv _, rfl⟩

/-- One active channel. -/
theorem witness_OneCycleSendsEveryActiveChannelInOrder :
    ∃ (s : State) (q : List Slot), BlockInv s ∧ s.phase = .brk ∧
      s.schedule = [.complete, .core, .complete, .core] ++
        (List.replicate s.activeCount.toNat [Slot.core, Slot.complete]).flatten ++ [.core] ++ q :=
  ⟨{ i0 with
      activeCount := 1#10
      schedule := [.complete, .core, .complete, .core, .core, .complete, .core] }, [],
    ⟨by decide, by decide, by decide, rfl, rfl⟩, rfl, by decide⟩

theorem witness_TheLinkShowsOnlyWhatWasSent :
    i0.faults = [] ∧ i0.link.en = true ∧ i0.link.hold = none ∧
      (let s := onLink (lk false (some .dat) (some 0x11#8) none false)
       s.faults = [] ∧ s.link.en = false ∧ s.link.shift ≠ none) := by decide

/-- A state to take one step from. -/
def oneStep (q : Slot) : State := { breakOut with schedule := [q] }

theorem witness_TheTraceOnlyGrows : ∃ t, step (oneStep .core) = .next t := ⟨_, rfl⟩

/-- After TERM, one byte still held by the disabled link. -/
def afterTerm (q : List Slot) : State :=
  { s0 with link := lk false (some .dat) (some 0x2A#8) none false, schedule := q, port := [0x10000000#32] }

theorem witness_afterTerm_BlockInv (q : List Slot) : BlockInv (afterTerm q) :=
  ⟨by show CursorInv (afterTerm []); decide, by show LinkInv (afterTerm []); decide, rfl, rfl, rfl⟩

theorem witness_NothingIsSentWhileIdle :
    ∃ t, BlockInv (afterTerm [.abandon]) ∧ (afterTerm [.abandon]).phase = .idle ∧ t.phase = .idle ∧
      step (afterTerm [.abandon]) = .next t :=
  ⟨_, witness_afterTerm_BlockInv _, rfl, rfl, rfl⟩

theorem witness_TheModeChangesOnlyOnAnIdleLink :
    ∃ t, (oneStep .core).schedule = .core :: [] ∧ Slot.core ≠ .action ∧ step (oneStep .core) = .next t ∧
      t.link.mode ≠ (oneStep .core).link.mode :=
  ⟨_, rfl, by decide, rfl, by decide⟩

theorem witness_EachRegisterHasItsWriters :
    ∃ t1 t2 t3 t4 t5 : State,
      (exec (.write 33 5) i0 = .next t1 ∧ t1.values ≠ i0.values ∧ t1.activeCount ≠ i0.activeCount) ∧
      (exec .tc breakOut = .next t2 ∧ t2.phase ≠ breakOut.phase ∧ t2.snap ≠ breakOut.snap ∧ t2.link ≠ breakOut.link) ∧
      (exec .tc { startCodeOut with index := 9 } = .next t3 ∧ t3.index ≠ 9) ∧
      (exec .term i0 = .next t4 ∧ t4.trigger ≠ i0.trigger) ∧
      (exec (.bufrd 0) { i0 with rdata := 0x11#8 } = .next t5 ∧ t5.rdata ≠ 0x11#8) :=
  ⟨_, _, _, _, _, ⟨rfl, by decide, by decide⟩, ⟨rfl, by decide, by decide, by decide⟩, ⟨rfl, by decide⟩, ⟨rfl, by decide⟩,
    ⟨rfl, by decide⟩⟩

theorem witness_HandlersKeepTheHostsState :
    ∃ t1 t2, exec .tc breakOut = .next t1 ∧ exec .sr (dataState 1 3 .sr [] (lk true (some .dat) none none true)) = .next t2 :=
  ⟨_, _, rfl, rfl⟩

theorem witness_HostCommandsKeepTheCursorAndTheLink :
    ∃ t, decodeCommand 0x2001000A#32 = .instr (.write 1 10) ∧ Instr.write 1 10 ≠ .init ∧ Instr.write 1 10 ≠ .term ∧
      exec (.write 1 10) i0 = .next t :=
  ⟨_, by decide, by decide, by decide, rfl⟩

theorem witness_TheSnapshotIsTakenOnlyAtTheBreak :
    ∃ t, step (oneStep .core) = .next t ∧ t.snap ≠ (oneStep .core).snap := ⟨_, rfl, by decide⟩

theorem witness_MarksAreSticky :
    ∃ (s t : State), step s = .next t ∧ .overrun ∈ s.faults ∧ s.refused = true :=
  ⟨{ oneStep .core with faults := [.overrun], refused := true }, _, rfl, by decide, rfl⟩

theorem witness_EveryStepKeepsTheBufferCanonical :
    ∃ (s t : State), s.values.wf = true ∧ step s = .next t ∧ t.values ≠ s.values :=
  ⟨{ i0 with values := [(1, 0x0A#8)], port := [0x20210005#32], schedule := [.host] }, _, by decide, rfl, by decide⟩

theorem witness_AHeldInitIsPerformedAfterTwoLinkSteps :
    BlockInv (afterTerm [.complete, .abandon, .host]) ∧ (afterTerm [.complete, .abandon, .host]).phase = .idle ∧
      (afterTerm [.complete, .abandon, .host]).schedule = .complete :: .abandon :: .host :: [] ∧
      (afterTerm [.complete, .abandon, .host]).port = 0x10000000#32 :: [] :=
  ⟨witness_afterTerm_BlockInv _, rfl, rfl, rfl⟩

theorem witness_TheAwaitedNotificationArrives :
    BlockInv { i0 with schedule := [.complete, .complete] } ∧ i0.phase ≠ .idle :=
  ⟨witness_BlockInv _, by decide⟩

theorem witness_AWrittenChannelReadsBack :
    ∃ s1 s2, ({ i0 with schedule := [.complete] } : State).values.wf = true ∧
      exec (.write 512 (-5)) { i0 with schedule := [.complete] } = .next s1 ∧ s1.schedule = .complete :: [] ∧
      step s1 = .next s2 :=
  ⟨_, _, by decide, rfl, rfl, rfl⟩

theorem witness_NoNotificationInIdle :
    BlockInv (afterTerm [.core]) ∧ (afterTerm [.core]).phase = .idle ∧ (afterTerm [.core]).schedule = .core :: [] :=
  ⟨witness_afterTerm_BlockInv _, rfl, rfl⟩

/-- `Data(1)` just after the TC in `StartCode`: an idle link whose completion was delivered. -/
def startCodeDelivered : State :=
  { dataState 1 3 .sr [] (lk true (some .dat) none none false) with schedule := [.core] }

theorem witness_OnlyTheLastCompletionRaisesTxc :
    ∃ t, step { i0 with schedule := [.complete] } = .next t ∧ i0.link.txc = false ∧ t.link.txc = true := ⟨_, rfl, rfl, rfl⟩

theorem witness_RequestLinesMeetTheContract :
    srq i0.link = true ∧ tcq breakOut.link = true ∧ s0.link.en = false ∧
      (∃ t, startCodeDelivered.link.shift = none ∧ startCodeDelivered.link.txc = false ∧
        step startCodeDelivered = .next t) := ⟨by decide, by decide, rfl, _, rfl, rfl, rfl⟩

theorem witness_ACoreStepSendsAtMostOneByte :
    ∃ t, BlockInv (oneStep .core) ∧ (oneStep .core).schedule = .core :: [] ∧ step (oneStep .core) = .next t ∧
      wire t ≠ wire (oneStep .core) :=
  ⟨_, ⟨by decide, by decide, by decide, rfl, rfl⟩, rfl, rfl, by decide⟩

/-- A fair run: INIT held after TERM, the link's byte completed, INIT performed, the break byte completed, TERM; then `Idle`. -/
def fairDue (n : Nat) : Slot :=
  match n with
  | 0 => .complete
  | 1 => .host
  | 2 => .complete
  | 3 => .host
  | _ => .complete

def fairIssued (n : Nat) : List CommandWord :=
  match n with
  | 3 => [0x70000000#32]
  | _ => []

/-- What a step of the run leaves. -/
def fairNext (q : Slot) (ws : List CommandWord) (s : State) : State :=
  match step (offer q ws s) with
  | .next t => t
  | .fault _ => s
  | .refused _ => s

def fairState (n : Nat) : State :=
  match n with
  | 0 => afterTerm []
  | n + 1 => fairNext (fairDue n) (fairIssued n) (fairState n)

/-- The run's last state: `Idle` with nothing to do. -/
def fairEnd : State :=
  { afterTerm [] with
    port := [], activeCount := 32#10
    link := { lk false (some .brk) none none true with
      trace := [.sent (some .dat) 0x2A#8, .sent (some .brk) 0x00#8] } }

theorem fairState_end (n : Nat) : fairState (n + 4) = fairEnd := by
  induction n with
  | zero => decide
  | succ n ih =>
    show fairNext .complete [] (fairState (n + 4)) = fairEnd
    rw [ih]
    rfl

theorem fairRun_witness : FairRun fairState fairDue fairIssued := by
  refine ⟨fun n => ?_, fun q n h => ?_⟩
  · match n with
    | 0 => rfl
    | 1 => rfl
    | 2 => rfl
    | 3 => rfl
    | n + 4 =>
      show step (offer .complete [] (fairState (n + 4))) = .next (fairState (n + 1 + 4))
      rw [fairState_end, fairState_end]
      rfl
  · have := h (n + 4) (by omega)
    rw [fairState_end] at this
    cases q <;> exact absurd this (by decide)

/-- Each clause's own hypothesis is met on the run: a byte shifting and a held INIT at 0, a deliverable TC at 3. -/
theorem witness_AFairRunLeavesNothingPending :
    FairRun fairState fairDue fairIssued ∧ BlockInv (fairState 0) ∧ (fairState 0).link.shift = some 0x2A#8 ∧
      (fairState 0).phase = .idle ∧ (fairState 0).port.head? = some 0x10000000#32 ∧
      enabled .core (fairState 3) = true :=
  ⟨fairRun_witness, witness_afterTerm_BlockInv [], rfl, rfl, rfl, by decide⟩

theorem witness_AFairRunRepeatsTheCycle :
    FairRun fairState fairDue fairIssued ∧ BlockInv (fairState 0) ∧ (fairState 3).phase ≠ .idle ∧
      (fairState (3 + 1)).phase = .idle :=
  ⟨fairRun_witness, witness_afterTerm_BlockInv [], by decide, by decide⟩

end Sys2Proof.Tests
end

/-! # What each operation writes (spec/10_state.md R34)

A footprint lemma says once which fields an operation may change: its result is the state it found with just those fields
written. Everything else is then unchanged by `simp`. -/

namespace Sys2Proof.Proofs

open Sys2Proof.Machine

/-! ### Shared operations -/

theorem memWrite_footprint {idx : Nat} {v : Byte} {s t : State} (h : memWrite idx v s = .ok t) :
    ∃ m, t = setValues m s := by
  unfold memWrite at h
  split at h
  · cases h; exact ⟨s.values, rfl⟩
  · split at h <;> cases h
    exact ⟨_, rfl⟩

theorem raiseCount_footprint (c : Nat) (s : State) : ∃ n, raiseCount c s = setActiveCount n s := by
  unfold raiseCount
  split
  · exact ⟨_, rfl⟩
  · exact ⟨s.activeCount, rfl⟩

theorem linkConfigure_footprint (m : WireMode) (s : State) :
    ∃ l fs rs, linkConfigure m s = { s with link := l, faults := fs, faultRecords := rs } := by
  cases h : linkIdle s.link with
  | true => exact ⟨_, _, _, linkConfigure_idle h⟩
  | false => exact ⟨_, _, _, linkConfigure_busy h⟩

theorem linkSend_footprint (b : Byte) (s : State) :
    ∃ l fs rs, linkSend b s = { s with link := l, faults := fs, faultRecords := rs } := by
  obtain ⟨-, -, h⟩ | ⟨f, h⟩ := linkSend_cases b s
  · exact ⟨_, _, _, h⟩
  · exact ⟨_, _, _, h⟩

theorem advanceCursor_eq (s : State) :
    advanceCursor s =
      setTrigger (if s.snap.toNat < s.index.toNat + 1 then .tc else s.trigger) (setData (s.index + 1) s) := by
  unfold advanceCursor
  split
  · rfl
  · rfl

theorem setData_of_data {i : Count} {s : State} (h : s.phase = .data) : setData i s = setIndex i s := by
  rw [setData, setPhase, ← h]

theorem advanceCursor_footprint {s : State} (h : s.phase = .data) :
    ∃ i tr, advanceCursor s = setTrigger tr (setIndex i s) :=
  ⟨_, _, by rw [advanceCursor_eq, setData_of_data h]⟩

theorem startCycle_footprint (s : State) :
    ∃ l fs rs, startCycle s = { s with
      values := [], activeCount := BitVec.ofNat 10 Config.defaultCount, phase := .brk, trigger := .tc
      link := l, faults := fs, faultRecords := rs } := by
  obtain ⟨l, fs, rs, hc⟩ := linkConfigure_footprint .brk
    (linkEnable true (setActiveCount (BitVec.ofNat 10 Config.defaultCount) (zeroFill s)))
  obtain ⟨l', fs', rs', hs⟩ := linkSend_footprint Config.breakByte (linkSelect .tc (linkConfigure .brk
    (linkEnable true (setActiveCount (BitVec.ofNat 10 Config.defaultCount) (zeroFill s)))))
  exact ⟨l', fs', rs', by rw [startCycle, hs, hc]; rfl⟩

theorem sendStartCode_footprint (s : State) :
    ∃ l fs rs, sendStartCode s = { s with
      phase := .startCode, snap := s.activeCount, link := l, faults := fs, faultRecords := rs } := by
  obtain ⟨l, fs, rs, hc⟩ := linkConfigure_footprint .dat s
  obtain ⟨l', fs', rs', hs⟩ := linkSend_footprint Config.startCode (setSnap s.activeCount (linkConfigure .dat s))
  exact ⟨l', fs', rs', by rw [sendStartCode, hs, hc]; rfl⟩

theorem sendBreak_footprint (s : State) :
    ∃ l fs rs, sendBreak s = { s with phase := .brk, link := l, faults := fs, faultRecords := rs } := by
  obtain ⟨l, fs, rs, hc⟩ := linkConfigure_footprint .brk s
  obtain ⟨l', fs', rs', hs⟩ := linkSend_footprint Config.breakByte (linkConfigure .brk s)
  exact ⟨l', fs', rs', by rw [sendBreak, hs, hc]; rfl⟩

/-! ### The handlers, phase by phase (spec/41_event_handlers.md R141, R144) -/

theorem execSr_sending {s : State} (h : sending s = true) : execSr s = sendChannel s := if_pos h

theorem execSr_elsewhere {s : State} (h : sending s = false) : execSr s = .next s := by
  simp [execSr, h]

theorem execTc_idle {s : State} (h : s.phase = .idle) : execTc s = .next s := by
  simp [execTc, h]

theorem execTc_brk {s : State} (h : s.phase = .brk) : execTc s = .next (sendStartCode s) := by
  simp [execTc, h]

theorem execTc_startCode {s : State} (h : s.phase = .startCode) : execTc s = .next (beginData s) := by
  simp [execTc, h]

theorem sending_iff {s : State} :
    sending s = true ↔ s.phase = .data ∧ 1 ≤ s.index.toNat ∧ s.index.toNat ≤ s.snap.toNat := by
  simp [sending, and_assoc]

theorem draining_iff {s : State} :
    draining s = true ↔ s.phase = .data ∧ s.index.toNat = s.snap.toNat + 1 := by
  simp [draining]

theorem execTc_draining {s : State} (h : draining s = true) : execTc s = .next (sendBreak s) := by
  simp [execTc, (draining_iff.1 h).1, h]

theorem execTc_data_not_draining {s : State} (hp : s.phase = .data) (h : draining s = false) :
    execTc s = .next s := by
  simp [execTc, hp, h]

/-! ### Instructions -/

theorem execInit_footprint {s t : State} (h : execInit s = .next t) :
    ∃ m n p tr l fs rs r rr, t = { s with
      values := m, activeCount := n, phase := p, trigger := tr, link := l, faults := fs, faultRecords := rs
      refused := r, refusals := rr } := by
  unfold execInit at h
  split at h
  · cases h; exact ⟨_, _, _, _, _, _, _, _, _, rfl⟩
  · split at h
    · cases h; exact ⟨_, _, _, _, _, _, _, _, _, rfl⟩
    · obtain ⟨l, fs, rs, hs⟩ := startCycle_footprint s
      cases h; exact ⟨_, _, _, _, _, _, _, _, _, hs⟩

theorem execWrite_footprint {ch v : Int} {s t : State} (h : execWrite ch v s = .next t) :
    ∃ m n, t = setActiveCount n (setValues m s) := by
  obtain ⟨u, hu, h⟩ := orFault_next h
  obtain ⟨m, rfl⟩ := memWrite_footprint hu
  obtain ⟨n, hn⟩ := raiseCount_footprint (clampChannel ch) (setValues m s)
  cases h; exact ⟨m, n, hn⟩

theorem execRead_footprint {ch : Int} {s t : State} (h : execRead ch s = .next t) : ∃ b, t = setRdata b s := by
  obtain ⟨b, -, h⟩ := orFault_next h
  cases h; exact ⟨b, rfl⟩

theorem execBufrd_footprint {idx : Nat} {s t : State} (h : execBufrd idx s = .next t) :
    ∃ b r rr, t = { s with rdata := b, refused := r, refusals := rr } := by
  unfold execBufrd at h
  split at h
  · obtain ⟨b, -, h⟩ := orFault_next h
    cases h; exact ⟨_, _, _, rfl⟩
  · cases h; exact ⟨_, _, _, rfl⟩

theorem execBufwr_footprint {idx : Nat} {d : Byte} {s t : State} (h : execBufwr idx d s = .next t) :
    ∃ m r rr, t = { s with values := m, refused := r, refusals := rr } := by
  unfold execBufwr at h
  split at h
  · obtain ⟨u, hu, h⟩ := orFault_next h
    obtain ⟨m, rfl⟩ := memWrite_footprint hu
    cases h; exact ⟨_, _, _, rfl⟩
  · cases h; exact ⟨_, _, _, rfl⟩

theorem execTerm_footprint {s t : State} (h : execTerm s = .next t) :
    ∃ p tr l, t = { s with phase := p, trigger := tr, link := l } := by
  unfold execTerm at h
  split at h
  · cases h; exact ⟨_, _, _, rfl⟩
  · cases h; exact ⟨_, _, _, rfl⟩

/-- SR leaves the phase alone: it sends only in `Data` (R141). -/
theorem execSr_footprint {s t : State} (h : execSr s = .next t) :
    ∃ i tr l fs rs, t = { s with index := i, trigger := tr, link := l, faults := fs, faultRecords := rs } := by
  cases hd : sending s with
  | false =>
    rw [execSr_elsewhere hd] at h
    cases h; exact ⟨_, _, _, _, _, rfl⟩
  | true =>
    rw [execSr_sending hd] at h
    obtain ⟨b, -, h⟩ := orFault_next h
    obtain ⟨l, fs, rs, hs⟩ := linkSend_footprint b s
    obtain ⟨i, tr, ha⟩ := advanceCursor_footprint (s := linkSend b s) (by rw [hs]; exact (sending_iff.1 hd).1)
    rw [leaveHandler_eq, ha, hs] at h
    cases h; exact ⟨_, _, _, _, _, rfl⟩

theorem execTc_footprint {s t : State} (h : execTc s = .next t) :
    ∃ p i n tr l fs rs, t = { s with
      phase := p, index := i, snap := n, trigger := tr, link := l, faults := fs, faultRecords := rs } := by
  cases hp : s.phase with
  | idle =>
    rw [execTc_idle hp] at h
    cases h; exact ⟨_, _, _, _, _, _, _, rfl⟩
  | brk =>
    obtain ⟨l, fs, rs, hs⟩ := sendStartCode_footprint s
    rw [execTc_brk hp, hs] at h
    cases h; exact ⟨_, _, _, _, _, _, _, rfl⟩
  | startCode =>
    rw [execTc_startCode hp] at h
    cases h; exact ⟨_, _, _, _, _, _, _, rfl⟩
  | data =>
    cases hd : draining s with
    | true =>
      obtain ⟨l, fs, rs, hs⟩ := sendBreak_footprint s
      rw [execTc_draining hd, hs] at h
      cases h; exact ⟨_, _, _, _, _, _, _, rfl⟩
    | false =>
      rw [execTc_data_not_draining hp hd] at h
      cases h; exact ⟨_, _, _, _, _, _, _, rfl⟩

/-- Settles O46: the footprint of each instruction, read field by field. -/
theorem eachRegisterHasItsWriters : Obligations.EachRegisterHasItsWriters := by
  unfold Obligations.EachRegisterHasItsWriters
  intro i s t h
  cases i with
  | init => obtain ⟨m, n, p, tr, l, fs, rs, r, rr, rfl⟩ := execInit_footprint h; simp
  | write ch v => obtain ⟨m, n, rfl⟩ := execWrite_footprint h; simp
  | read ch => obtain ⟨b, rfl⟩ := execRead_footprint h; simp
  | setcount n => cases h; simp
  | bufrd idx => obtain ⟨b, r, rr, rfl⟩ := execBufrd_footprint h; simp
  | bufwr idx d => obtain ⟨m, r, rr, rfl⟩ := execBufwr_footprint h; simp
  | term => obtain ⟨p, tr, l, rfl⟩ := execTerm_footprint h; simp
  | sr => obtain ⟨i, tr, l, fs, rs, rfl⟩ := execSr_footprint h; simp
  | tc => obtain ⟨p, i, n, tr, l, fs, rs, rfl⟩ := execTc_footprint h; simp
  | linkEnable e => cases h; simp [linkEnable]
  | linkConfigure m => obtain ⟨l, fs, rs, hc⟩ := linkConfigure_footprint m s; cases h; simp [hc]
  | linkSend b => obtain ⟨l, fs, rs, hs⟩ := linkSend_footprint b s; cases h; simp [hs]
  | linkSelect u => cases h; simp [linkSelect]

end Sys2Proof.Proofs

/-! # What a step can do (spec/20_memory.md R58)

Every step that answers a next state is one of the moves of `SlotStep`, in any state and for any agent. -/

namespace Sys2Proof.Proofs

open Sys2Proof.Machine

/-! ### The instructions a port brings -/

theorem whenZero_instr {z : Bool} {d : Decoded} {i : Instr} (h : whenZero z d = .instr i) : d = .instr i := by
  cases z with
  | true => exact h
  | false => cases h

theorem whenMapped_instr {idx : Nat} {d : Decoded} {i : Instr} (h : whenMapped idx d = .instr i) : d = .instr i := by
  unfold whenMapped at h
  split at h
  · exact h
  · cases h

/-- A command word that is not refused is one of the seven host commands (spec/30_encoding.md R72). -/
theorem decodeCommand_cases {w : CommandWord} {i : Instr} (h : decodeCommand w = .instr i) :
    i = .init ∨ (∃ ch v, i = .write ch v) ∨ (∃ ch, i = .read ch) ∨ (∃ n, i = .setcount n) ∨
      (∃ idx, i = .bufrd idx) ∨ (∃ idx d, i = .bufwr idx d) ∨ i = .term := by
  unfold decodeCommand at h
  split at h
  · cases whenZero_instr h; simp
  · cases h; simp
  · cases whenZero_instr h; simp
  · cases whenZero_instr h; simp
  · cases whenMapped_instr (whenZero_instr h); simp
  · cases whenMapped_instr (whenZero_instr h); simp
  · cases whenZero_instr h; simp
  · cases h

/-- An action word of the table is one of the four link actions (R80). -/
theorem decodeAction_cases {a : ActionWord} {i : Instr} (h : decodeAction a = .instr i) :
    (∃ e, i = .linkEnable e) ∨ (∃ m, i = .linkConfigure m) ∨ (∃ b, i = .linkSend b) ∨ ∃ t, i = .linkSelect t := by
  simp only [decodeAction] at h
  split at h
  · split at h <;> cases h
    simp
  · split at h <;> cases h
    simp
  · cases h; simp
  · split at h <;> cases h
    simp
  · cases h

/-! ### The moves -/

/-- The move of a due slot from the state `u`, its slot already taken, to the next state. -/
inductive SlotStep : Slot → State → State → Prop where
  /-- The slot's agent has no step to take (log entry 4), or its word stays at the port. -/
  | idle (q : Slot) (u : State) : SlotStep q u u
  /-- The host's word is refused (R75 to R78). -/
  | refuse {u : State} {w : CommandWord} {ws : List CommandWord} {r : RefusalReason}
      (hp : u.port = w :: ws) (hd : decodeCommand w = .refused r) : SlotStep .host u (refuse r (setPort ws u))
  /-- The host's command is performed (R100). -/
  | command {u t : State} {w : CommandWord} {ws : List CommandWord} {i : Instr}
      (hp : u.port = w :: ws) (hd : decodeCommand w = .instr i) (hh : held i u = false)
      (he : exec i (setPort ws u) = .next t) : SlotStep .host u t
  /-- SR is delivered (R140). -/
  | sr {u t : State} (ht : u.trigger = .sr) (hl : srq u.link = true) (he : execSr u = .next t) : SlotStep .core u t
  /-- TC is delivered (R140, R180). -/
  | tc {u t : State} (ht : u.trigger = .tc) (hl : tcq u.link = true) (he : execTc (enterHandler .tc u) = .next t) :
      SlotStep .core u t
  /-- The completion step (R177). -/
  | complete (u : State) : SlotStep .complete u (completionStep u)
  /-- The abandon step (R181). -/
  | abandon (u : State) : SlotStep .abandon u (abandonStep u)
  /-- The outside driver's link action (log entry 7). -/
  | action {u t : State} {a : ActionWord} {as : List ActionWord} {i : Instr}
      (hp : u.actionPort = a :: as) (hd : decodeAction a = .instr i) (he : exec i (setActionPort as u) = .next t) :
      SlotStep .action u t

/-- What a step makes of what its slot brings. -/
def perform : Fetched → Result
  | .run i u => exec i u
  | .done u => .next u
  | .stop r => .refused r

theorem step_eq_perform (s : State) : step s = perform (slotFetch (nextSlot s).1 (nextSlot s).2) :=
  step_eq s

theorem slotStep_host {u t : State} (h : perform (hostFetch u) = .next t) : SlotStep .host u t := by
  unfold hostFetch at h
  split at h
  next => cases h; exact .idle _ _
  next w ws hp =>
    split at h
    next i hd =>
      split at h
      next => cases h; exact .idle _ _
      next hh => exact .command hp hd (Bool.eq_false_of_not_eq_true hh) h
    next r hd => cases h; exact .refuse hp hd
    next => cases h; exact .idle _ _
    next => cases h; exact .idle _ _

theorem slotStep_core {u t : State} (h : perform (coreFetch u) = .next t) : SlotStep .core u t := by
  unfold coreFetch at h
  obtain hd | hd | hd := decodeDelivery_cases (deliveryWord u)
  · obtain ⟨ht, hl⟩ := (decodeDelivery_sr u).1 hd
    rw [hd] at h
    exact .sr ht hl h
  · obtain ⟨ht, hl⟩ := (decodeDelivery_tc u).1 hd
    rw [hd] at h
    exact .tc ht hl h
  · rw [hd] at h
    cases h; exact .idle _ _

theorem slotStep_action {u t : State} (h : perform (actionFetch u) = .next t) : SlotStep .action u t := by
  unfold actionFetch at h
  split at h
  next => cases h; exact .idle _ _
  next a as hp =>
    split at h
    next i hd => exact .action hp hd h
    next => cases h
    next => cases h
    next => cases h

/-- Every step is the move of the slot that is due, from the state with that slot taken. -/
theorem slotStep_of_step {s t : State} (h : step s = .next t) : SlotStep (nextSlot s).1 (nextSlot s).2 t := by
  rw [step_eq_perform] at h
  generalize (nextSlot s).1 = q at h ⊢
  cases q with
  | host => exact slotStep_host h
  | core => exact slotStep_core h
  | complete => cases h; exact .complete _
  | abandon => cases h; exact .abandon _
  | action => exact slotStep_action h

/-! ### The snapshot (spec/10_state.md R26) -/

/-- Only TC writes the snapshot: `eachRegisterHasItsWriters`, the clause for `snap`. -/
theorem exec_keeps_snap {i : Instr} {s t : State} (h : exec i s = .next t) (hi : i ≠ .tc) : t.snap = s.snap := by
  obtain ⟨-, -, -, -, hsnap, -⟩ := eachRegisterHasItsWriters i s t h
  by_contra hne
  exact hi (hsnap hne)

theorem command_keeps_snap {w : CommandWord} {i : Instr} {s t : State} (hd : decodeCommand w = .instr i)
    (h : exec i s = .next t) : t.snap = s.snap :=
  exec_keeps_snap h (by rintro rfl; simpa using decodeCommand_cases hd)

theorem action_keeps_snap {a : ActionWord} {i : Instr} {s t : State} (hd : decodeAction a = .instr i)
    (h : exec i s = .next t) : t.snap = s.snap :=
  exec_keeps_snap h (by rintro rfl; simpa using decodeAction_cases hd)

/-- Away from `Break` the TC handler takes no snapshot; in `Break` it leads to `StartCode` (R145). -/
theorem execTc_snap {s t : State} (h : execTc s = .next t) (hne : t.snap ≠ s.snap) :
    s.phase = .brk ∧ t.phase = .startCode ∧ t.snap = s.activeCount := by
  cases hp : s.phase with
  | idle =>
    rw [execTc_idle hp] at h
    cases h; exact absurd rfl hne
  | brk =>
    obtain ⟨l, fs, rs, hs⟩ := sendStartCode_footprint s
    rw [execTc_brk hp, hs] at h
    cases h; exact ⟨rfl, rfl, rfl⟩
  | startCode =>
    rw [execTc_startCode hp] at h
    cases h; exact absurd rfl hne
  | data =>
    cases hd : draining s with
    | true =>
      obtain ⟨l, fs, rs, hs⟩ := sendBreak_footprint s
      rw [execTc_draining hd, hs] at h
      cases h; exact absurd rfl hne
    | false =>
      rw [execTc_data_not_draining hp hd] at h
      cases h; exact absurd rfl hne

theorem showOnWire_footprint (e : TraceEntry) (s : State) :
    ∃ l n, showOnWire e s = setFreeCount n (setLink l s) := by
  unfold showOnWire
  split
  · exact ⟨traceAppend e s.link, s.freeCount, rfl⟩
  · exact ⟨_, _, rfl⟩

theorem completionStep_footprint (s : State) : ∃ l n, completionStep s = setFreeCount n (setLink l s) := by
  unfold completionStep
  split
  next b _ =>
    obtain ⟨l, n, h⟩ := showOnWire_footprint (.sent s.link.mode b) s
    exact ⟨_, n, by rw [h]; rfl⟩
  next => exact ⟨s.link, s.freeCount, rfl⟩

theorem abandonStep_footprint (s : State) : ∃ l n, abandonStep s = setFreeCount n (setLink l s) := by
  unfold abandonStep
  split
  · obtain ⟨l, n, h⟩ := showOnWire_footprint .cut s
    exact ⟨_, n, by rw [h]; rfl⟩
  · exact ⟨s.link, s.freeCount, rfl⟩

theorem slotStep_snap {q : Slot} {u t : State} (h : SlotStep q u t) (hne : t.snap ≠ u.snap) :
    u.phase = .brk ∧ u.trigger = .tc ∧ t.phase = .startCode ∧ t.snap = u.activeCount := by
  cases h with
  | idle => exact absurd rfl hne
  | refuse => exact absurd rfl hne
  | command _ hd _ he => exact absurd (command_keeps_snap hd he) hne
  | sr _ _ he => exact absurd (exec_keeps_snap (i := .sr) he (by decide)) hne
  | tc ht _ he =>
    obtain ⟨hp, hp', hn⟩ := execTc_snap he hne
    exact ⟨hp, ht, hp', hn⟩
  | complete =>
    obtain ⟨l, n, hc⟩ := completionStep_footprint u
    simp [hc] at hne
  | abandon =>
    obtain ⟨l, n, hc⟩ := abandonStep_footprint u
    simp [hc] at hne
  | action _ hd he => exact absurd (action_keeps_snap hd he) hne

/-- Settles O49: of the moves of a step only TC's handler, in `Break`, writes `snap`. -/
theorem theSnapshotIsTakenOnlyAtTheBreak : Obligations.TheSnapshotIsTakenOnlyAtTheBreak := by
  unfold Obligations.TheSnapshotIsTakenOnlyAtTheBreak
  intro s t h hne
  have hstep := slotStep_of_step h
  obtain ⟨rest, hu⟩ | hu := nextSlot_state s
  · rw [hu] at hstep
    simpa using slotStep_snap hstep hne
  · rw [hu] at hstep
    simpa using slotStep_snap hstep hne

end Sys2Proof.Proofs

/-! # The block's invariant (spec/10_state.md R32)

One introduction rule for each phase, what the invariant says where a notification is delivered, and one preservation
lemma for each move of a step. -/

namespace Sys2Proof.Proofs

open Sys2Proof.Machine Sys2Proof.Safety

/-! ### Introducing and using the invariant -/

/-- The part of `BlockInv` that speaks of neither the cursor nor the link. -/
abbrev StoreInv (s : State) : Prop :=
  (1 ≤ s.activeCount.toNat ∧ s.activeCount.toNat ≤ Config.capacity) ∧ Memory.wf s.values = true ∧
  s.faults = [] ∧ s.actionPort = []

theorem storeInv_of_blockInv {s : State} (h : BlockInv s) : StoreInv s := by
  obtain ⟨⟨-, -, -, -, -, hcount, -, -⟩, -, hwf, hfaults, haction⟩ := h
  exact ⟨hcount, hwf, hfaults, haction⟩

theorem blockInv_idle {s : State} (hs : StoreInv s) (hp : s.phase = .idle) (ht : s.trigger = .none)
    (hen : s.link.en = false) (hhold : s.link.hold ≠ none → s.link.shift ≠ none) : BlockInv s := by
  obtain ⟨hcount, hwf, hfaults, haction⟩ := hs
  simp_all [BlockInv, CursorInv, LinkInv]

theorem blockInv_brk {s : State} (hs : StoreInv s) (hp : s.phase = .brk) (ht : s.trigger = .tc)
    (hen : s.link.en = true) (hmode : s.link.mode = some .brk) (hhold : s.link.hold = none)
    (hshift : s.link.shift ≠ none) : BlockInv s := by
  obtain ⟨hcount, hwf, hfaults, haction⟩ := hs
  simp_all [BlockInv, CursorInv, LinkInv]

theorem blockInv_startCode {s : State} (hs : StoreInv s) (hp : s.phase = .startCode) (ht : s.trigger = .tc)
    (hsnap : 1 ≤ s.snap.toNat ∧ s.snap.toNat ≤ Config.capacity) (hen : s.link.en = true)
    (hmode : s.link.mode = some .dat) (hhold : s.link.hold = none) (hshift : s.link.shift ≠ none) : BlockInv s := by
  obtain ⟨hcount, hwf, hfaults, haction⟩ := hs
  simp_all [BlockInv, CursorInv, LinkInv]

/-- In `Data(i)` the trigger says whether a byte or the end of the last one is awaited. -/
theorem blockInv_data {s : State} (hs : StoreInv s) (hp : s.phase = .data)
    (ht : s.trigger = if s.index.toNat ≤ s.snap.toNat then .sr else .tc)
    (hindex : 1 ≤ s.index.toNat ∧ s.index.toNat ≤ s.snap.toNat + 1)
    (hsnap : 1 ≤ s.snap.toNat ∧ s.snap.toNat ≤ Config.capacity)
    (hen : s.link.en = true) (hmode : s.link.mode = some .dat) (hhold : s.link.hold ≠ none → s.link.shift ≠ none)
    (hcoming : s.trigger = .tc → s.link.shift ≠ none ∨ s.link.txc = true) : BlockInv s := by
  obtain ⟨hcount, hwf, hfaults, haction⟩ := hs
  have hsr : s.index.toNat ≤ s.snap.toNat → s.trigger = .sr := fun h => by rw [ht, if_pos h]
  have htc : s.index.toNat = s.snap.toNat + 1 → s.trigger = .tc := fun h => by rw [ht, if_neg (by omega)]
  have hne : s.trigger ≠ .none := by rw [ht]; split <;> decide
  exact ⟨⟨by simp [hp, hne], by simp [hp], fun _ => hsr, fun _ => htc, fun _ => ⟨hindex.1, hindex.2, hsnap⟩, hcount,
    rfl, fun _ => hen⟩, ⟨hhold, by simp [hp], fun _ => hmode, by simp [hp], fun _ => hcoming, by simp [hp], by simp [hp]⟩,
    hwf, hfaults, haction⟩

/-- Where SR is selected, the cursor stands at a channel of the buffer (R32). -/
theorem blockInv_sr {s : State} (h : BlockInv s) (ht : s.trigger = .sr) :
    s.phase = .data ∧ 1 ≤ s.index.toNat ∧ s.index.toNat ≤ s.snap.toNat ∧ s.snap.toNat ≤ Config.capacity := by
  obtain ⟨⟨hidle, hawait, -, hdrain, hrange, -, -, -⟩, -⟩ := h
  have hp : s.phase = .data := by
    cases hp : s.phase with
    | idle => simp [hidle.1 hp] at ht
    | brk => simp [hawait (.inl hp)] at ht
    | startCode => simp [hawait (.inr hp)] at ht
    | data => rfl
  obtain ⟨h1, hle, -, hcap⟩ := hrange hp
  have hne : s.index.toNat ≠ s.snap.toNat + 1 := fun he => by simp [hdrain hp he] at ht
  exact ⟨hp, h1, by omega, hcap⟩

/-- Where TC is selected in `Data`, the cursor stands in the drain wait (R32). -/
theorem draining_of_tc {s : State} (h : BlockInv s) (hp : s.phase = .data) (ht : s.trigger = .tc) :
    draining s = true := by
  obtain ⟨⟨-, -, hsend, -, hrange, -, -, -⟩, -⟩ := h
  obtain ⟨-, hle, -, -⟩ := hrange hp
  have hlt : ¬ s.index.toNat ≤ s.snap.toNat := fun he => by simp [hsend hp he] at ht
  exact draining_iff.2 ⟨hp, by omega⟩

theorem shift_of_hold {s : State} (h : BlockInv s) : s.link.hold ≠ none → s.link.shift ≠ none := by
  obtain ⟨-, ⟨hbehind, -⟩, -⟩ := h
  exact hbehind

theorem linkEnabled_of_active {s : State} (h : BlockInv s) (hp : s.phase ≠ .idle) : s.link.en = true := by
  obtain ⟨⟨-, -, -, -, -, -, -, hon⟩, -⟩ := h
  exact hon hp

/-! ### Host commands -/

/-- The invariant reads nothing of the host's but the buffer's form and the count's range. -/
theorem blockInv_hostState {s : State} {m : Memory} {n : Count} {b : Byte} {r : Bool} {rr : List RefusalReason}
    {ws : List CommandWord} (h : BlockInv s) (hm : m.wf = true) (hn : 1 ≤ n.toNat ∧ n.toNat ≤ Config.capacity) :
    BlockInv { s with values := m, activeCount := n, rdata := b, refused := r, refusals := rr, port := ws } := by
  obtain ⟨⟨hidle, hawait, hsend, hdrain, hrange, -, -, hen⟩, hlink, -, hrest⟩ := h
  exact ⟨⟨hidle, hawait, hsend, hdrain, hrange, hn, rfl, hen⟩, hlink, hm, hrest⟩

theorem clampChannel_count_range (x : Int) :
    1 ≤ (BitVec.ofNat 10 (clampChannel x)).toNat ∧ (BitVec.ofNat 10 (clampChannel x)).toNat ≤ Config.capacity := by
  rw [clampChannel_count]
  exact clampChannel_range x

theorem setPort_keeps_blockInv (ws : List CommandWord) {s : State} (h : BlockInv s) : BlockInv (setPort ws s) := by
  obtain ⟨hcount, hwf, -⟩ := storeInv_of_blockInv h
  exact blockInv_hostState h hwf hcount

theorem refuse_keeps_blockInv (r : RefusalReason) {s : State} (h : BlockInv s) : BlockInv (refuse r s) := by
  obtain ⟨hcount, hwf, -⟩ := storeInv_of_blockInv h
  exact blockInv_hostState h hwf hcount

theorem startCycle_idle {s : State} (hi : linkIdle s.link = true) :
    startCycle s = { s with
      values := [], activeCount := BitVec.ofNat 10 Config.defaultCount, phase := .brk, trigger := .tc
      link := { s.link with en := true, mode := some .brk, shift := some Config.breakByte, txc := false } } := by
  obtain ⟨hs, hh⟩ := linkIdle_iff.1 hi
  dsimp only [startCycle]
  rw [linkConfigure_idle, linkSend_ready, acceptByte_empty]
  · rfl
  · exact hs
  · rfl
  · exact hh
  · exact hi

theorem execInit_keeps_blockInv {s t : State} (h : BlockInv s) (hh : initHeld s = false) (he : execInit s = .next t) :
    BlockInv t := by
  obtain ⟨-, -, hfaults, haction⟩ := storeInv_of_blockInv h
  unfold execInit at he
  split at he
  next => cases he; exact refuse_keeps_blockInv _ h
  next hp =>
    have hidle : linkIdle s.link = true := by simpa [initHeld, not_not.1 hp] using hh
    rw [hh, startCycle_idle hidle] at he
    cases he
    have hcount : 1 ≤ (BitVec.ofNat 10 Config.defaultCount).toNat ∧
        (BitVec.ofNat 10 Config.defaultCount).toNat ≤ Config.capacity := by decide
    exact blockInv_brk ⟨hcount, rfl, hfaults, haction⟩ rfl rfl rfl rfl (linkIdle_iff.1 hidle).2 (by simp)

theorem execWrite_keeps_blockInv {ch v : Int} {s t : State} (h : BlockInv s) (he : execWrite ch v s = .next t) :
    BlockInv t := by
  obtain ⟨hcount, hwf, -⟩ := storeInv_of_blockInv h
  obtain ⟨u, hu, he⟩ := orFault_next he
  obtain ⟨hset, hwf', -⟩ := memWrite_spec hu hwf
  rw [hset] at he
  cases he
  unfold raiseCount
  split
  · exact blockInv_hostState (s := s) h hwf' (clampChannel_count_range ch)
  · exact blockInv_hostState (s := s) h hwf' hcount

theorem execRead_keeps_blockInv {ch : Int} {s t : State} (h : BlockInv s) (he : execRead ch s = .next t) :
    BlockInv t := by
  obtain ⟨hcount, hwf, -⟩ := storeInv_of_blockInv h
  obtain ⟨b, rfl⟩ := execRead_footprint he
  exact blockInv_hostState h hwf hcount

theorem execSetcount_keeps_blockInv {n : Int} {s t : State} (h : BlockInv s) (he : execSetcount n s = .next t) :
    BlockInv t := by
  obtain ⟨-, hwf, -⟩ := storeInv_of_blockInv h
  cases he
  exact blockInv_hostState h hwf (clampChannel_count_range n)

theorem execBufrd_keeps_blockInv {idx : Nat} {s t : State} (h : BlockInv s) (he : execBufrd idx s = .next t) :
    BlockInv t := by
  obtain ⟨hcount, hwf, -⟩ := storeInv_of_blockInv h
  obtain ⟨b, r, rr, rfl⟩ := execBufrd_footprint he
  exact blockInv_hostState h hwf hcount

theorem execBufwr_keeps_blockInv {idx : Nat} {d : Byte} {s t : State} (h : BlockInv s)
    (he : execBufwr idx d s = .next t) : BlockInv t := by
  obtain ⟨hcount, hwf, -⟩ := storeInv_of_blockInv h
  unfold execBufwr at he
  split at he
  · obtain ⟨u, hu, he⟩ := orFault_next he
    obtain ⟨hset, hwf', -⟩ := memWrite_spec hu hwf
    rw [hset] at he
    cases he
    exact blockInv_hostState (s := s) h hwf' hcount
  · cases he; exact refuse_keeps_blockInv _ h

theorem execTerm_keeps_blockInv {s t : State} (h : BlockInv s) (he : execTerm s = .next t) : BlockInv t := by
  have hs := storeInv_of_blockInv h
  unfold execTerm at he
  split at he
  · cases he; exact h
  · cases he
    exact blockInv_idle hs rfl rfl rfl (shift_of_hold (s := s) h)

@[simp] theorem held_setPort (i : Instr) (ws : List CommandWord) (s : State) :
    held i (setPort ws s) = held i s := by
  cases i <;> rfl

theorem command_keeps_blockInv {w : CommandWord} {i : Instr} {s t : State} (h : BlockInv s)
    (hd : decodeCommand w = .instr i) (hh : held i s = false) (he : exec i s = .next t) : BlockInv t := by
  obtain rfl | ⟨ch, v, rfl⟩ | ⟨ch, rfl⟩ | ⟨n, rfl⟩ | ⟨idx, rfl⟩ | ⟨idx, d, rfl⟩ | rfl := decodeCommand_cases hd
  · exact execInit_keeps_blockInv h hh he
  · exact execWrite_keeps_blockInv h he
  · exact execRead_keeps_blockInv h he
  · exact execSetcount_keeps_blockInv h he
  · exact execBufrd_keeps_blockInv h he
  · exact execBufwr_keeps_blockInv h he
  · exact execTerm_keeps_blockInv h he

/-! ### Notifications -/

theorem acceptByte_shift (b : Byte) (l : Link) : (acceptByte b l).shift ≠ none := by
  by_cases h : l.shift = none
  · simp [acceptByte_empty h]
  · simpa [acceptByte_behind h] using h

theorem acceptByte_en (b : Byte) (l : Link) : (acceptByte b l).en = l.en := by
  unfold acceptByte; split <;> rfl

theorem acceptByte_mode (b : Byte) (l : Link) : (acceptByte b l).mode = l.mode := by
  unfold acceptByte; split <;> rfl

theorem succ_count {i : Count} (h : i.toNat ≤ Config.capacity) : (i + 1).toNat = i.toNat + 1 := by
  unfold Config.capacity at h
  bv_omega

/-- SR where it is delivered: the channel's byte goes to the link and the cursor advances (R142). -/
theorem execSr_delivered {s : State} (h : BlockInv s) (ht : s.trigger = .sr) (hl : srq s.link = true) :
    execSr s = .next (advanceCursor (setLink (acceptByte (byteAt s.index.toNat s) s.link) s)) := by
  obtain ⟨hp, h1, hle, hcap⟩ := blockInv_sr h ht
  obtain ⟨hen, hhold⟩ := srq_iff.1 hl
  rw [execSr_sending (sending_iff.2 ⟨hp, h1, hle⟩), sendChannel, memRead_mapped (by omega), orFault_ok,
    leaveHandler_eq, linkSend_ready hen hhold]

theorem execSr_keeps_blockInv {s t : State} (h : BlockInv s) (ht : s.trigger = .sr) (hl : srq s.link = true)
    (he : execSr s = .next t) : BlockInv t := by
  rw [execSr_delivered h ht hl, advanceCursor_eq] at he
  obtain ⟨hp, h1, hle, hcap⟩ := blockInv_sr h ht
  have hsucc := succ_count (i := s.index) (by omega)
  have hs := storeInv_of_blockInv h
  obtain ⟨-, ⟨-, -, hmode, -⟩, -⟩ := h
  cases he
  refine blockInv_data hs rfl ?_ ?_ ⟨by simp only [setTrigger_snap, setData_snap, setLink_snap]; omega, hcap⟩
    ?_ ?_ (fun _ => acceptByte_shift _ _) (fun _ => .inl (acceptByte_shift _ _))
  · show (if s.snap.toNat < s.index.toNat + 1 then Trigger.tc else s.trigger) =
      if (s.index + 1).toNat ≤ s.snap.toNat then .sr else .tc
    rw [hsucc, ht]
    split
    · rw [if_neg (by omega)]
    · rw [if_pos (by omega)]
  · show 1 ≤ (s.index + 1).toNat ∧ (s.index + 1).toNat ≤ s.snap.toNat + 1
    omega
  · exact (acceptByte_en _ _).trans (srq_iff.1 hl).1
  · exact (acceptByte_mode _ _).trans (hmode (.inr hp))

theorem sendStartCode_idle {s : State} (hen : s.link.en = true) (hi : linkIdle s.link = true) :
    sendStartCode s = { s with
      phase := .startCode, snap := s.activeCount
      link := { s.link with mode := some .dat, shift := some Config.startCode, txc := false } } := by
  obtain ⟨hs, hh⟩ := linkIdle_iff.1 hi
  rw [sendStartCode, linkConfigure_idle hi, linkSend_ready, acceptByte_empty]
  · rfl
  · exact hs
  · exact hen
  · exact hh

theorem sendBreak_idle {s : State} (hen : s.link.en = true) (hi : linkIdle s.link = true) :
    sendBreak s = { s with
      phase := .brk
      link := { s.link with mode := some .brk, shift := some Config.breakByte, txc := false } } := by
  obtain ⟨hs, hh⟩ := linkIdle_iff.1 hi
  rw [sendBreak, linkConfigure_idle hi, linkSend_ready, acceptByte_empty]
  · rfl
  · exact hs
  · exact hen
  · exact hh

/-- TC clears `L.txc` on entry, so the invariant is that of the state it was delivered in, and the handler restores it. -/
theorem execTc_keeps_blockInv {s t : State} (h : BlockInv s) (ht : s.trigger = .tc) (hl : tcq s.link = true)
    (he : execTc (enterHandler .tc s) = .next t) : BlockInv t := by
  obtain ⟨hen, -, hshift, hhold⟩ := tcq_iff.1 hl
  have hi : linkIdle s.link = true := linkIdle_iff.2 ⟨hshift, hhold⟩
  have hs := storeInv_of_blockInv h
  cases hp : s.phase with
  | idle =>
    obtain ⟨⟨hidle, -⟩, -⟩ := h
    simp [hidle.1 hp] at ht
  | brk =>
    rw [execTc_brk (s := enterHandler .tc s) hp, sendStartCode_idle (s := enterHandler .tc s) hen hi] at he
    cases he
    exact blockInv_startCode hs rfl ht hs.1 hen rfl hhold (by simp)
  | startCode =>
    obtain ⟨-, ⟨-, -, hmode, -, -, hsnap, -⟩, -⟩ := h
    obtain ⟨h1, hcap⟩ := hsnap hp
    rw [execTc_startCode (s := enterHandler .tc s) hp] at he
    cases he
    exact blockInv_data hs rfl (if_pos h1).symm ⟨le_rfl, Nat.le_add_left 1 _⟩ ⟨h1, hcap⟩ hen
      (hmode (.inl hp)) (absurd hhold) (by simp [beginData, linkSelect])
  | data =>
    have hd : draining (enterHandler .tc s) = true := draining_of_tc (s := s) h hp ht
    rw [execTc_draining hd, sendBreak_idle (s := enterHandler .tc s) hen hi] at he
    cases he
    exact blockInv_brk hs rfl ht hen rfl hhold (by simp)

/-! ### Link steps -/

/-- A link step keeps the enable and the mode; it must leave the holding register filled only behind a shifting byte, not
fill it, and leave a byte or its completion wherever TC is awaited. -/
theorem blockInv_setLink {s : State} {l : Link} (h : BlockInv s) (hen : l.en = s.link.en) (hmode : l.mode = s.link.mode)
    (hbehind : l.hold ≠ none → l.shift ≠ none) (hempty : s.link.hold = none → l.hold = none)
    (hcoming : s.phase ≠ .idle → l.shift ≠ none ∨ l.txc = true) : BlockInv (setLink l s) := by
  obtain ⟨⟨hidle, hawait, hsend, hdrain, hrange, hcount, -, hon⟩, ⟨-, hbrk, hdat, hhold, -, hsnap, hoff⟩, hrest⟩ := h
  exact ⟨⟨hidle, hawait, hsend, hdrain, hrange, hcount, rfl, fun hp => hen.trans (hon hp)⟩,
    ⟨hbehind, fun hp => hmode.trans (hbrk hp), fun hp => hmode.trans (hdat hp), fun hp => hempty (hhold hp),
      fun hp _ => hcoming hp, hsnap, fun hp => hen.trans (hoff hp)⟩, hrest⟩

theorem completionStep_keeps_blockInv {s : State} (h : BlockInv s) : BlockInv (completionStep s) := by
  obtain ⟨-, -, hf, -⟩ := storeInv_of_blockInv h
  cases hs : s.link.shift with
  | none => rwa [completionStep_idle hs]
  | some b =>
    cases hh : s.link.hold with
    | none =>
      rw [completionStep_last hf hs hh]
      exact blockInv_setLink h rfl rfl (absurd hh) id (fun _ => .inr rfl)
    | some x =>
      rw [completionStep_held hf hs hh]
      exact blockInv_setLink h rfl rfl (by simp) (fun _ => rfl) (by simp)

/-- Only a disabled link abandons its bytes, and under the invariant the link is disabled only in `Idle`. -/
theorem abandonStep_keeps_blockInv {s : State} (h : BlockInv s) : BlockInv (abandonStep s) := by
  obtain ⟨-, -, hf, -⟩ := storeInv_of_blockInv h
  by_cases hd : s.link.en = false ∧ s.link.shift ≠ none
  · obtain ⟨hen, hs⟩ := hd
    rw [abandonStep_disabled hf hen hs]
    exact blockInv_setLink h rfl rfl (by simp) (fun _ => rfl) fun hp => by simp [linkEnabled_of_active h hp] at hen
  · have hne : s.link.en = true ∨ s.link.shift = none := by
      by_contra hno
      exact hd (by simpa using hno)
    rwa [abandonStep_not_enabled hne]

/-! ### Every step -/

theorem slotStep_keeps_blockInv {q : Slot} {u t : State} (h : BlockInv u) (hstep : SlotStep q u t) : BlockInv t := by
  obtain ⟨-, -, -, haction⟩ := storeInv_of_blockInv h
  cases hstep with
  | idle => exact h
  | refuse => exact refuse_keeps_blockInv _ (setPort_keeps_blockInv _ h)
  | command _ hd hh he =>
    exact command_keeps_blockInv (setPort_keeps_blockInv _ h) hd (by rwa [held_setPort]) he
  | sr ht hl he => exact execSr_keeps_blockInv h ht hl he
  | tc ht hl he => exact execTc_keeps_blockInv h ht hl he
  | complete => exact completionStep_keeps_blockInv h
  | abandon => exact abandonStep_keeps_blockInv h
  | action hp => rw [haction] at hp; cases hp

/-- Taking a slot writes nothing the invariant reads. -/
theorem nextSlot_keeps_blockInv {s : State} (h : BlockInv s) : BlockInv (nextSlot s).2 := by
  obtain ⟨rest, hu⟩ | hu := nextSlot_state s
  · rw [hu]; exact h
  · rw [hu]; exact h

/-- Settles O38: every move of a step keeps the invariant. -/
theorem everyStepKeepsTheInvariant : Obligations.EveryStepKeepsTheInvariant := by
  unfold Obligations.EveryStepKeepsTheInvariant
  intro s t h hstep
  exact slotStep_keeps_blockInv (nextSlot_keeps_blockInv h) (slotStep_of_step hstep)

/-! ### Reset -/

/-- Settles O36: each field of the reset state, and the empty buffer, in which no index is listed. -/
theorem resetLeavesTheTableOfR35 : Obligations.ResetLeavesTheTableOfR35 := by
  unfold Obligations.ResetLeavesTheTableOfR35
  have hbyte : ∀ a, byteAt a State.reset = 0x00#8 := fun a => by
    unfold byteAt
    split <;> rfl
  exact ⟨hbyte, rfl, rfl, rfl, rfl, rfl, rfl, rfl, rfl, rfl, rfl, rfl, rfl⟩

/-- Settles O37: reset is a state in `Idle` with the link off, where the frame invariant asks nothing. -/
theorem invariantHoldsAtReset : Obligations.InvariantHoldsAtReset := by
  unfold Obligations.InvariantHoldsAtReset
  exact ⟨blockInv_idle ⟨by decide, rfl, rfl, rfl⟩ rfl rfl rfl (absurd rfl), trivial⟩

end Sys2Proof.Proofs

/-! # The channel buffer and the byte order of a command word (spec/20_memory.md)

The buffer's canonical form is kept by the three instructions that write it and, through the moves of `SlotStep`, by every
step. -/

namespace Sys2Proof.Proofs

open Sys2Proof.Machine

/-! ### The byte order of a command word (spec/20_memory.md R54) -/

/-- Appending a byte below a word makes it the word's least significant byte. -/
theorem toNat_append_byte {n : Nat} (hi : BitVec n) (lo : Byte) :
    (hi ++ lo).toNat = 2 ^ 8 * hi.toNat + lo.toNat := by
  rw [BitVec.toNat_append, ← Nat.shiftLeft_add_eq_or_of_lt lo.isLt, Nat.shiftLeft_eq, Nat.mul_comm]

theorem commandOfBytes_toNat (b0 b1 b2 b3 : Byte) :
    (commandOfBytes b0 b1 b2 b3).toNat =
      b0.toNat + 2 ^ 8 * b1.toNat + 2 ^ 16 * b2.toNat + 2 ^ 24 * b3.toNat := by
  unfold commandOfBytes
  rw [toNat_append_byte, toNat_append_byte, toNat_append_byte]
  omega

theorem extractLsb'_eq_byte {w : CommandWord} {k : Nat} {b : Byte} (h : w.toNat / 2 ^ k % 2 ^ 8 = b.toNat) :
    w.extractLsb' k 8 = b :=
  BitVec.eq_of_toNat_eq (by rw [BitVec.extractLsb'_toNat, Nat.shiftRight_eq_div_pow, h])

theorem bytesOfCommand_commandOfBytes (b0 b1 b2 b3 : Byte) :
    bytesOfCommand (commandOfBytes b0 b1 b2 b3) = [b0, b1, b2, b3] := by
  have hw := commandOfBytes_toNat b0 b1 b2 b3
  have h0 := b0.isLt
  have h1 := b1.isLt
  have h2 := b2.isLt
  have h3 := b3.isLt
  unfold bytesOfCommand
  rw [extractLsb'_eq_byte (k := 0) (b := b0) (by omega), extractLsb'_eq_byte (k := 8) (b := b1) (by omega),
    extractLsb'_eq_byte (k := 16) (b := b2) (by omega), extractLsb'_eq_byte (k := 24) (b := b3) (by omega)]

/-- Settles O8: the word of that value is the one assembled from the four bytes. -/
theorem commandBytesGoLeastSignificantFirst : Obligations.CommandBytesGoLeastSignificantFirst := by
  unfold Obligations.CommandBytesGoLeastSignificantFirst
  intro b0 b1 b2 b3 rest w h
  obtain rfl : w = commandOfBytes b0 b1 b2 b3 :=
    BitVec.eq_of_toNat_eq (h.trans (commandOfBytes_toNat b0 b1 b2 b3).symm)
  exact ⟨bytesOfCommand_commandOfBytes b0 b1 b2 b3, rfl⟩

/-! ### The canonical form of the buffer (spec/20_memory.md R50, R51, R57) -/

/-- INIT leaves the buffer as it was or lists nothing. -/
theorem execInit_keeps_wf {s t : State} (hm : s.values.wf = true) (h : execInit s = .next t) :
    t.values.wf = true := by
  unfold execInit at h
  split at h
  · cases h; exact hm
  · split at h
    · cases h; exact hm
    · obtain ⟨l, fs, rs, hs⟩ := startCycle_footprint s
      rw [hs] at h
      cases h; rfl

theorem execWrite_keeps_wf {ch v : Int} {s t : State} (hm : s.values.wf = true) (h : execWrite ch v s = .next t) :
    t.values.wf = true := by
  obtain ⟨u, hu, h⟩ := orFault_next h
  obtain ⟨-, hwf, -⟩ := memWrite_spec hu hm
  obtain ⟨n, hn⟩ := raiseCount_footprint (clampChannel ch) u
  rw [hn] at h
  cases h; exact hwf

theorem execBufwr_keeps_wf {idx : Nat} {d : Byte} {s t : State} (hm : s.values.wf = true)
    (h : execBufwr idx d s = .next t) : t.values.wf = true := by
  unfold execBufwr at h
  split at h
  · obtain ⟨u, hu, h⟩ := orFault_next h
    obtain ⟨-, hwf, -⟩ := memWrite_spec hu hm
    cases h; exact hwf
  · cases h; exact hm

/-- Only INIT, WRITE and BUFWR write the buffer (`eachRegisterHasItsWriters`), and each keeps its form. -/
theorem exec_keeps_wf {i : Instr} {s t : State} (hm : s.values.wf = true) (h : exec i s = .next t) :
    t.values.wf = true := by
  obtain ⟨hwriters, -⟩ := eachRegisterHasItsWriters i s t h
  by_cases hsame : t.values = s.values
  · rwa [hsame]
  · obtain rfl | ⟨ch, v, rfl⟩ | ⟨idx, d, rfl⟩ := hwriters hsame
    · exact execInit_keeps_wf hm h
    · exact execWrite_keeps_wf hm h
    · exact execBufwr_keeps_wf hm h

theorem slotStep_keeps_wf {q : Slot} {u t : State} (hm : u.values.wf = true) (h : SlotStep q u t) :
    t.values.wf = true := by
  cases h with
  | idle => exact hm
  | refuse => exact hm
  | command _ _ _ he => exact exec_keeps_wf (by rwa [setPort_values]) he
  | sr _ _ he => exact exec_keeps_wf (i := .sr) hm he
  | tc _ _ he => exact exec_keeps_wf (i := .tc) (s := enterHandler .tc u) hm he
  | complete =>
    obtain ⟨l, n, hc⟩ := completionStep_footprint u
    rwa [hc]
  | abandon =>
    obtain ⟨l, n, hc⟩ := abandonStep_footprint u
    rwa [hc]
  | action _ _ he => exact exec_keeps_wf (by rwa [setActionPort_values]) he

theorem nextSlot_values (s : State) : (nextSlot s).2.values = s.values := by
  obtain ⟨rest, hu⟩ | hu := nextSlot_state s
  · rw [hu, setSchedule_values]
  · rw [hu, setFreeCount_values]

/-- Settles O51: taking the slot leaves the buffer alone, and every move of a step keeps its form. -/
theorem everyStepKeepsTheBufferCanonical : Obligations.EveryStepKeepsTheBufferCanonical := by
  unfold Obligations.EveryStepKeepsTheBufferCanonical
  intro s t hm h
  exact slotStep_keeps_wf (by rwa [nextSlot_values]) (slotStep_of_step h)

/-! ### A cursor beyond the buffer (spec/20_memory.md R51, R53) -/

/-- Settles O28: SR reads the buffer at the cursor's index, which is not mapped. -/
theorem srStopsBeyondTheBuffer : Obligations.SrStopsBeyondTheBuffer := by
  unfold Obligations.SrStopsBeyondTheBuffer
  intro s hp hbeyond hsnap
  have hsending : sending s = true := sending_iff.2 ⟨hp, by omega, hsnap⟩
  calc exec .sr s = execSr s := rfl
    _ = sendChannel s := execSr_sending hsending
    _ = .fault (.unmappedIndex s.index.toNat) := by rw [sendChannel, memRead_unmapped hbeyond, orFault_error]

end Sys2Proof.Proofs

/-! # The words of the three ports (spec/30_encoding.md)

A command word is taken apart once into its fields, `commandWord op a b`, and the decoder said once per opcode (R72 to R78).
Its refusals are then one `↔` (`decodeCommand_eq_refused_iff`), and every word it accepts is the encoding of what it decodes to
(`acceptedCommandWordEncodesBack`); for the action words (R80) that is `encode_of_decodeAction`. -/

namespace Sys2Proof.Proofs

open Sys2Proof.Machine Sys2Proof.Safety

/-! ### Fields of a word -/

theorem extractLsb'_high_eq_zero_iff {w n : Nat} (hn : n ≤ w) (x : BitVec w) :
    x.extractLsb' n (w - n) = 0 ↔ x.toNat < 2 ^ n := by
  have hlt : x.toNat / 2 ^ n < 2 ^ (w - n) :=
    Nat.div_lt_of_lt_mul (by rw [← Nat.pow_add, Nat.add_sub_cancel' hn]; exact x.isLt)
  rw [← BitVec.toNat_inj, BitVec.extractLsb'_toNat, Nat.shiftRight_eq_div_pow, Nat.mod_eq_of_lt hlt]
  exact Nat.div_eq_zero_iff_lt (Nat.two_pow_pos n)

/-- A word whose high bits are zero is its low bits, widened: what a payload check leaves of a word. -/
theorem setWidth_extractLsb'_low {w n : Nat} (hn : n ≤ w) {x : BitVec w} (h : x.extractLsb' n (w - n) = 0) :
    (x.extractLsb' 0 n).setWidth w = x := by
  have hlt := (extractLsb'_high_eq_zero_iff hn x).1 h
  refine BitVec.eq_of_toNat_eq ?_
  rw [BitVec.toNat_setWidth, BitVec.extractLsb'_toNat, Nat.shiftRight_zero, Nat.mod_eq_of_lt hlt,
    Nat.mod_eq_of_lt x.isLt]

/-- The data byte `d` as the encoder writes it into `B` (R73): nothing in the high byte. -/
theorem high_setWidth (d : Byte) : (d.setWidth 16).extractLsb' 8 8 = 0#8 := by
  have hd := d.isLt
  refine (extractLsb'_high_eq_zero_iff (n := 8) (by decide) _).2 ?_
  rw [BitVec.toNat_setWidth]
  omega

theorem low_setWidth (d : Byte) : (d.setWidth 16).extractLsb' 0 8 = d := by
  rw [BitVec.extractLsb'_setWidth_of_le (by decide), BitVec.extractLsb'_eq_self]

theorem ofBool_getLsbD_zero {w : Nat} (x : BitVec w) : BitVec.ofBool (x.getLsbD 0) = x.extractLsb' 0 1 := by
  ext j hj
  obtain rfl : j = 0 := by omega
  simp

/-- The value of two fields side by side, at any width (`toNat_append_byte` is the case of a byte). -/
theorem toNat_append_eq {n m : Nat} (hi : BitVec n) (lo : BitVec m) :
    (hi ++ lo).toNat = 2 ^ m * hi.toNat + lo.toNat := by
  rw [BitVec.toNat_append, ← Nat.shiftLeft_add_eq_or_of_lt lo.isLt, Nat.shiftLeft_eq, Nat.mul_comm]

/-! ### Fields of a command word (R71) -/

@[simp] theorem bHigh_commandWord (op : BitVec 4) (a : BitVec 12) (b : BitVec 16) :
    bHigh (commandWord op a b) = b.extractLsb' 8 8 :=
  BitVec.extractLsb'_append_eq_of_add_le (by decide)

@[simp] theorem dField_commandWord (op : BitVec 4) (a : BitVec 12) (b : BitVec 16) :
    dField (commandWord op a b) = b.extractLsb' 0 8 :=
  BitVec.extractLsb'_append_eq_of_add_le (by decide)

theorem commandWord_toNat (op : BitVec 4) (a : BitVec 12) (b : BitVec 16) :
    (commandWord op a b).toNat = 2 ^ 28 * op.toNat + 2 ^ 16 * a.toNat + b.toNat := by
  unfold commandWord
  rw [toNat_append_eq, toNat_append_eq]
  omega

theorem opcode_of_toNat (op : BitVec 4) (a : BitVec 12) (b : BitVec 16) :
    (commandWord op a b).toNat / 2 ^ 28 = op.toNat := by
  have ha := a.isLt
  have hb := b.isLt
  rw [commandWord_toNat]
  omega

theorem index_of_toNat (op : BitVec 4) (a : BitVec 12) (b : BitVec 16) :
    (commandWord op a b).toNat / 2 ^ 16 % 2 ^ 12 = a.toNat := by
  have ha := a.isLt
  have hb := b.isLt
  rw [commandWord_toNat]
  omega

theorem low_of_toNat (op : BitVec 4) (a : BitVec 12) (b : BitVec 16) :
    (commandWord op a b).toNat % 2 ^ 16 = b.toNat := by
  have hb := b.isLt
  rw [commandWord_toNat]
  omega

theorem exists_commandWord (w : CommandWord) : ∃ op a b, w = commandWord op a b :=
  ⟨_, _, _, (commandWord_fields w).symm⟩

theorem opcode_cases (op : BitVec 4) :
    (op.toNat = 0 ∨ 8 ≤ op.toNat) ∨ op = 1#4 ∨ op = 2#4 ∨ op = 3#4 ∨ op = 4#4 ∨ op = 5#4 ∨ op = 6#4 ∨ op = 7#4 := by
  revert op
  decide

/-! ### The decoder, opcode by opcode (R72 to R78) -/

theorem decodeCommand_reserved {op : BitVec 4} (h : op.toNat = 0 ∨ 8 ≤ op.toNat) (a : BitVec 12) (b : BitVec 16) :
    decodeCommand (commandWord op a b) = .refused .reservedOpcode := by
  unfold decodeCommand
  rw [opField_commandWord]
  split
  case h_8 => rfl
  all_goals omega

section
variable (a : BitVec 12) (b : BitVec 16)

theorem decodeCommand_init :
    decodeCommand (commandWord 1#4 a b) = whenZero (a == 0 && b == 0) (.instr .init) := by
  simp [decodeCommand]

theorem decodeCommand_write :
    decodeCommand (commandWord 2#4 a b) = .instr (.write a.toInt b.toInt) := by
  simp [decodeCommand, signedA, signedB]

theorem decodeCommand_read :
    decodeCommand (commandWord 3#4 a b) = whenZero (b == 0) (.instr (.read a.toInt)) := by
  simp [decodeCommand, signedA]

theorem decodeCommand_setcount :
    decodeCommand (commandWord 4#4 a b) = whenZero (b == 0) (.instr (.setcount a.toInt)) := by
  simp [decodeCommand, signedA]

theorem decodeCommand_bufrd :
    decodeCommand (commandWord 5#4 a b) = whenZero (b == 0) (whenMapped a.toNat (.instr (.bufrd a.toNat))) := by
  simp [decodeCommand, indexA]

theorem decodeCommand_bufwr :
    decodeCommand (commandWord 6#4 a b) =
      whenZero (b.extractLsb' 8 8 == 0) (whenMapped a.toNat (.instr (.bufwr a.toNat (b.extractLsb' 0 8)))) := by
  simp [decodeCommand, indexA]

theorem decodeCommand_term :
    decodeCommand (commandWord 7#4 a b) = whenZero (a == 0 && b == 0) (.instr .term) := by
  simp [decodeCommand]

end

/-! ### The two checks (R76, R77) -/

@[simp] theorem whenZero_eq_instr_iff {z : Bool} {d : Decoded} {i : Instr} :
    whenZero z d = .instr i ↔ z = true ∧ d = .instr i := by
  cases z <;> simp [whenZero]

@[simp] theorem whenMapped_eq_instr_iff {idx : Nat} {d : Decoded} {i : Instr} :
    whenMapped idx d = .instr i ↔ idx ≤ 512 ∧ d = .instr i := by
  unfold whenMapped
  split <;> simp_all [mapped_iff]

@[simp] theorem whenZero_eq_refused_iff {z : Bool} {d : Decoded} {r : RefusalReason} :
    whenZero z d = .refused r ↔ (z = false ∧ r = .nonzeroReservedBits) ∨ (z = true ∧ d = .refused r) := by
  cases z <;> simp [whenZero, eq_comm]

@[simp] theorem whenMapped_eq_refused_iff {idx : Nat} {d : Decoded} {r : RefusalReason} :
    whenMapped idx d = .refused r ↔ (512 < idx ∧ r = .rawIndexRange) ∨ (idx ≤ 512 ∧ d = .refused r) := by
  unfold whenMapped
  by_cases h : idx ≤ 512
  · simp [mapped_iff.2 h, h, Nat.not_lt.2 h]
  · simp [mapped_iff, h, Nat.lt_of_not_le h, eq_comm (a := r)]

/-! ### The must-be-zero bits (R76) -/

theorem commandWord_and (op op' : BitVec 4) (a a' : BitVec 12) (b b' : BitVec 16) :
    commandWord op a b &&& commandWord op' a' b' = commandWord (op &&& op') (a &&& a') (b &&& b') := by
  unfold commandWord
  rw [BitVec.and_append, BitVec.and_append]

theorem commandWord_eq_zero_iff {op : BitVec 4} {a : BitVec 12} {b : BitVec 16} :
    commandWord op a b = 0#32 ↔ op = 0#4 ∧ a = 0#12 ∧ b = 0#16 := by
  constructor
  · intro h
    have hop := opField_commandWord op a b
    have ha := aField_commandWord op a b
    have hb := bField_commandWord op a b
    rw [h] at hop ha hb
    exact ⟨hop.symm, ha.symm, hb.symm⟩
  · rintro ⟨rfl, rfl, rfl⟩
    rfl

section
variable (op : BitVec 4) (a : BitVec 12) (b : BitVec 16)

theorem and_maskAB_eq_zero_iff : commandWord op a b &&& 0x0FFFFFFF#32 = 0#32 ↔ a = 0#12 ∧ b = 0#16 := by
  have hmask : 0x0FFFFFFF#32 = commandWord 0#4 (BitVec.allOnes 12) (BitVec.allOnes 16) := by decide
  rw [hmask, commandWord_and, commandWord_eq_zero_iff, BitVec.and_allOnes, BitVec.and_allOnes]
  simp

theorem and_maskB_eq_zero_iff : commandWord op a b &&& 0x0000FFFF#32 = 0#32 ↔ b = 0#16 := by
  have hmask : 0x0000FFFF#32 = commandWord 0#4 0#12 (BitVec.allOnes 16) := by decide
  rw [hmask, commandWord_and, commandWord_eq_zero_iff, BitVec.and_allOnes]
  simp

theorem and_maskBHigh_eq_zero_iff : commandWord op a b &&& 0x0000FF00#32 = 0#32 ↔ b.extractLsb' 8 8 = 0#8 := by
  have hmask : 0x0000FF00#32 = commandWord 0#4 0#12 (BitVec.allOnes 8 ++ 0#8) := by decide
  have hb : b = b.extractLsb' 8 8 ++ b.extractLsb' 0 8 :=
    (BitVec.extractLsb'_append_extractLsb' (w := 8) (len := 8)).symm
  have hand : b &&& (BitVec.allOnes 8 ++ 0#8) = b.extractLsb' 8 8 ++ 0#8 := by
    conv_lhs => rw [hb, BitVec.and_append, BitVec.and_allOnes, BitVec.and_zero]
  rw [hmask, commandWord_and, commandWord_eq_zero_iff, hand, ← BitVec.toNat_inj (x := _ ++ _), toNat_append_eq,
    ← BitVec.toNat_inj (x := b.extractLsb' 8 8)]
  simp

end

theorem mustBeZero_reserved {n : Nat} (h : n = 0 ∨ 8 ≤ n) : mustBeZero n = 0#32 := by
  unfold mustBeZero
  split
  case h_7 => rfl
  all_goals omega

/-! ### Refused command words (R75 to R78) -/

/-- Which words the decoder refuses, and why: the three reasons exclude one another, the reserved opcode having no
must-be-zero bits and the index check coming after the must-be-zero check (R78). -/
theorem decodeCommand_eq_refused_iff (w : CommandWord) (r : RefusalReason) :
    decodeCommand w = .refused r ↔
      ((w.toNat / 2 ^ 28 = 0 ∨ 8 ≤ w.toNat / 2 ^ 28) ∧ r = .reservedOpcode) ∨
      (w &&& mustBeZero (w.toNat / 2 ^ 28) ≠ 0#32 ∧ r = .nonzeroReservedBits) ∨
      (((w.toNat / 2 ^ 28 = 5 ∧ w.toNat % 2 ^ 16 = 0) ∨ (w.toNat / 2 ^ 28 = 6 ∧ w.toNat % 2 ^ 16 < 2 ^ 8)) ∧
        512 < w.toNat / 2 ^ 16 % 2 ^ 12 ∧ r = .rawIndexRange) := by
  obtain ⟨op, a, b, rfl⟩ := exists_commandWord w
  rw [opcode_of_toNat, index_of_toNat, low_of_toNat]
  have hzero : b.toNat = 0 ↔ b = 0#16 := BitVec.toNat_inj (y := 0#16)
  have hhigh : b.toNat < 256 ↔ b.extractLsb' 8 8 = 0#8 := (extractLsb'_high_eq_zero_iff (n := 8) (by decide) b).symm
  obtain h | rfl | rfl | rfl | rfl | rfl | rfl | rfl := opcode_cases op
  · have h5 : op.toNat ≠ 5 := by omega
    have h6 : op.toNat ≠ 6 := by omega
    rw [decodeCommand_reserved h, mustBeZero_reserved h]
    simp [h, h5, h6, eq_comm (a := r)]
  · have hz := and_maskAB_eq_zero_iff 1#4 a b
    simp [decodeCommand_init, mustBeZero, hz]
  · simp [decodeCommand_write, mustBeZero]
  · have hz := and_maskB_eq_zero_iff 3#4 a b
    simp [decodeCommand_read, mustBeZero, hz]
  · have hz := and_maskB_eq_zero_iff 4#4 a b
    simp [decodeCommand_setcount, mustBeZero, hz]
  · have hz := and_maskB_eq_zero_iff 5#4 a b
    simp [decodeCommand_bufrd, mustBeZero, hz, hzero]
  · have hz := and_maskBHigh_eq_zero_iff 6#4 a b
    simp [decodeCommand_bufwr, mustBeZero, hz, hhigh]
  · have hz := and_maskAB_eq_zero_iff 7#4 a b
    simp [decodeCommand_term, mustBeZero, hz]

/-- The host step on a refused word: the word leaves the port, the slot is used, the refusal is recorded (R208). -/
theorem step_refused_command {w : CommandWord} {r : RefusalReason} {s : State} {q : List Slot} {ws : List CommandWord}
    (hd : decodeCommand w = .refused r) (hq : s.schedule = .host :: q) (hp : s.port = w :: ws) :
    step s = .next { s with schedule := q, port := ws, refused := true, refusals := s.refusals ++ [r] } := by
  rw [step_eq_perform, nextSlot_scheduled hq]
  simp only [slotFetch, hostFetch, setSchedule_port, hp, hd]
  rfl

/-- Settles O4, by the first reason of `decodeCommand_eq_refused_iff`. -/
theorem reservedOpcodesAreRefused : Obligations.ReservedOpcodesAreRefused := by
  unfold Obligations.ReservedOpcodesAreRefused
  intro w
  have hiff : (w.toNat / 2 ^ 28 = 0 ∨ 8 ≤ w.toNat / 2 ^ 28) ↔ decodeCommand w = .refused .reservedOpcode := by
    simp [decodeCommand_eq_refused_iff]
  exact ⟨hiff, fun s q ws hop hq hp => step_refused_command (hiff.1 hop) hq hp⟩

/-- Settles O5, by the second reason of `decodeCommand_eq_refused_iff`. -/
theorem nonzeroReservedBitsAreRefused : Obligations.NonzeroReservedBitsAreRefused := by
  unfold Obligations.NonzeroReservedBitsAreRefused
  intro w
  have hiff : w &&& mustBeZero (w.toNat / 2 ^ 28) ≠ 0#32 ↔ decodeCommand w = .refused .nonzeroReservedBits := by
    simp [decodeCommand_eq_refused_iff]
  exact ⟨hiff, fun s q ws hbits hq hp => step_refused_command (hiff.1 hbits) hq hp⟩

/-- Settles O6, by the third reason of `decodeCommand_eq_refused_iff`. -/
theorem rawIndexBeyondCapacityIsRefused : Obligations.RawIndexBeyondCapacityIsRefused := by
  unfold Obligations.RawIndexBeyondCapacityIsRefused
  intro w
  exact ⟨by simp [decodeCommand_eq_refused_iff], fun s q ws hd hq hp => step_refused_command hd hq hp⟩

/-! ### Accepted command words (R73, R83) -/

theorem signed12_toInt (a : BitVec 12) : signed12 a.toInt = true := by
  have hlo := a.le_toInt
  have hhi := a.toInt_lt
  exact signed12_iff.2 (by omega)

theorem signed16_toInt (b : BitVec 16) : signed16 b.toInt = true := by
  have hlo := b.le_toInt
  have hhi := b.toInt_lt
  exact signed16_iff.2 (by omega)

/-- Settles O2: each opcode's checks leave exactly the bits the encoder writes. -/
theorem acceptedCommandWordEncodesBack : Obligations.AcceptedCommandWordEncodesBack := by
  unfold Obligations.AcceptedCommandWordEncodesBack
  intro w i h
  obtain ⟨op, a, b, rfl⟩ := exists_commandWord w
  obtain hr | rfl | rfl | rfl | rfl | rfl | rfl | rfl := opcode_cases op
  · simp [decodeCommand_reserved hr] at h
  · obtain ⟨⟨rfl, rfl⟩, rfl⟩ : (a = 0#12 ∧ b = 0#16) ∧ .init = i := by simpa [decodeCommand_init] using h
    exact ⟨rfl, rfl⟩
  · obtain rfl : .write a.toInt b.toInt = i := by simpa [decodeCommand_write] using h
    simp [Instr.wf, encode, signed12_toInt, signed16_toInt]
  · obtain ⟨rfl, rfl⟩ : b = 0#16 ∧ .read a.toInt = i := by simpa [decodeCommand_read] using h
    simp [Instr.wf, encode, signed12_toInt]
  · obtain ⟨rfl, rfl⟩ : b = 0#16 ∧ .setcount a.toInt = i := by simpa [decodeCommand_setcount] using h
    simp [Instr.wf, encode, signed12_toInt]
  · obtain ⟨rfl, hidx, rfl⟩ : b = 0#16 ∧ a.toNat ≤ 512 ∧ .bufrd a.toNat = i := by
      simpa [decodeCommand_bufrd] using h
    simp [Instr.wf, encode, mapped_iff, hidx]
  · obtain ⟨hhigh, hidx, rfl⟩ :
        b.extractLsb' 8 8 = 0#8 ∧ a.toNat ≤ 512 ∧ .bufwr a.toNat (b.extractLsb' 0 8) = i := by
      simpa [decodeCommand_bufwr] using h
    have hlow : (b.extractLsb' 0 8).setWidth 16 = b := setWidth_extractLsb'_low (by decide) hhigh
    simp only [Instr.wf, encode, mapped_iff, hidx, hlow, BitVec.ofNat_toNat, BitVec.setWidth_eq, and_self]
  · obtain ⟨⟨rfl, rfl⟩, rfl⟩ : (a = 0#12 ∧ b = 0#16) ∧ .term = i := by simpa [decodeCommand_term] using h
    exact ⟨rfl, rfl⟩

/-! ### Fields of an action word (R80) -/

@[simp] theorem extractLsb'_kind_actionWord (k : BitVec 3) (p : Byte) : (actionWord k p).extractLsb' 8 3 = k :=
  BitVec.extractLsb'_append_eq_left

@[simp] theorem extractLsb'_payload_actionWord (k : BitVec 3) (p : Byte) : (actionWord k p).extractLsb' 0 8 = p :=
  BitVec.extractLsb'_append_eq_right

theorem exists_actionWord (a : ActionWord) : ∃ k p, a = actionWord k p :=
  ⟨a.extractLsb' 8 3, a.extractLsb' 0 8, (BitVec.extractLsb'_append_extractLsb' (w := 3) (len := 8)).symm⟩

theorem actionWord_toNat (k : BitVec 3) (p : Byte) : (actionWord k p).toNat = 2 ^ 8 * k.toNat + p.toNat :=
  toNat_append_eq k p

/-! ### The mode and trigger codes of a payload (R80, R85) -/

theorem modeCode_of_modeOfCode {c : BitVec 2} {m : WireMode} (h : modeOfCode c = some m) : modeCode (some m) = c := by
  unfold modeOfCode at h
  split at h
  next hc => cases h; exact BitVec.eq_of_toNat_eq hc.symm
  next hc => cases h; exact BitVec.eq_of_toNat_eq hc.symm
  next => cases h

theorem triggerCode_of_triggerOfCode {c : BitVec 2} {t : Trigger} (h : triggerOfCode c = some t) : triggerCode t = c := by
  unfold triggerOfCode at h
  split at h
  next hc => cases h; exact BitVec.eq_of_toNat_eq hc.symm
  next hc => cases h; exact BitVec.eq_of_toNat_eq hc.symm
  next hc => cases h; exact BitVec.eq_of_toNat_eq hc.symm
  next => cases h

/-! ### The encoder's words decode (R72 to R74, R79, R80) -/


theorem toInt_ofInt_signed12 {x : Int} (h : signed12 x = true) : (BitVec.ofInt 12 x).toInt = x := by
  obtain ⟨hlo, hhi⟩ := signed12_iff.1 h
  exact BitVec.toInt_ofInt_eq_self (by decide) hlo (by omega)

theorem toInt_ofInt_signed16 {x : Int} (h : signed16 x = true) : (BitVec.ofInt 16 x).toInt = x := by
  obtain ⟨hlo, hhi⟩ := signed16_iff.1 h
  exact BitVec.toInt_ofInt_eq_self (by decide) hlo (by omega)

theorem toNat_ofNat_mapped {idx : Nat} (h : mapped idx = true) : (BitVec.ofNat 12 idx).toNat = idx := by
  have hidx := mapped_iff.1 h
  rw [BitVec.toNat_ofNat, Nat.mod_eq_of_lt (by omega)]

/-- Settles O1, row by row: each field of the word decodes to the operand it was written from. -/
theorem decodeOfEncodeIsTheInstruction : Obligations.DecodeOfEncodeIsTheInstruction := by
  unfold Obligations.DecodeOfEncodeIsTheInstruction
  intro i h
  cases i with
  | init => rfl
  | write ch v =>
    obtain ⟨hch, hv⟩ : signed12 ch = true ∧ signed16 v = true := by simpa [Instr.wf] using h
    simp only [encode, decode, decodeCommand_write, toInt_ofInt_signed12 hch, toInt_ofInt_signed16 hv]
  | read ch =>
    have hch : signed12 ch = true := h
    simp [encode, decode, decodeCommand_read, toInt_ofInt_signed12 hch, whenZero]
  | setcount n =>
    have hn : signed12 n = true := h
    simp [encode, decode, decodeCommand_setcount, toInt_ofInt_signed12 hn, whenZero]
  | bufrd idx =>
    have hidx : mapped idx = true := h
    simp only [encode, decode, decodeCommand_bufrd, toNat_ofNat_mapped hidx]
    simp [mapped_iff.1 hidx]
  | bufwr idx d =>
    have hidx : mapped idx = true := h
    simp only [encode, decode, decodeCommand_bufwr, toNat_ofNat_mapped hidx, high_setWidth, low_setWidth]
    simp [mapped_iff.1 hidx]
  | term => rfl
  | sr => rfl
  | tc => rfl
  | linkEnable e => cases e <;> rfl
  | linkConfigure m => cases m <;> rfl
  | linkSend b => simp [encode, decode, decodeAction]
  | linkSelect t => cases t <;> rfl

/-! ### Action words (R80) -/

/-- An action word of the table is the encoding of what it decodes to: each kind's payload check leaves the encoder's bits. -/
theorem encode_of_decodeAction {a : ActionWord} {i : Instr} (h : decodeAction a = .instr i) : encode i = .action a := by
  obtain ⟨k, p, rfl⟩ := exists_actionWord a
  simp only [decodeAction, extractLsb'_kind_actionWord, extractLsb'_payload_actionWord] at h
  split at h
  next hk =>
    obtain rfl : k = 1#3 := BitVec.eq_of_toNat_eq hk
    split at h
    next hp =>
      have hlow := setWidth_extractLsb'_low (n := 1) (by decide) (eq_of_beq hp)
      cases h
      simp only [encode, ofBool_getLsbD_zero, hlow]
    next => cases h
  next hk =>
    obtain rfl : k = 2#3 := BitVec.eq_of_toNat_eq hk
    split at h
    next m hp hm =>
      cases h
      have hlow := setWidth_extractLsb'_low (n := 2) (by decide) (eq_of_beq hp)
      simp only [encode, modeCode_of_modeOfCode hm, hlow]
    next => cases h
  next hk =>
    obtain rfl : k = 3#3 := BitVec.eq_of_toNat_eq hk
    cases h
    rfl
  next hk =>
    obtain rfl : k = 4#3 := BitVec.eq_of_toNat_eq hk
    split at h
    next t hp ht =>
      cases h
      have hlow := setWidth_extractLsb'_low (n := 2) (by decide) (eq_of_beq hp)
      simp only [encode, triggerCode_of_triggerOfCode ht, hlow]
    next => cases h
  next => cases h

theorem wf_of_encode_action {a : ActionWord} {i : Instr} (h : encode i = .action a) : i.wf = true := by
  cases i with
  | linkEnable | linkConfigure | linkSend | linkSelect => rfl
  | _ => cases h

theorem decodeAction_eq_instr_iff {a : ActionWord} {i : Instr} : decodeAction a = .instr i ↔ encode i = .action a := by
  constructor
  · exact encode_of_decodeAction
  · intro h
    have hdec := decodeOfEncodeIsTheInstruction i (wf_of_encode_action h)
    rwa [h] at hdec

theorem action_eq_iff {w a : ActionWord} {n : Nat} (h : w.toNat = n) : PortWord.action w = .action a ↔ a.toNat = n := by
  rw [← h, PortWord.action.injEq, BitVec.toNat_inj, eq_comm]

theorem encode_linkEnable_iff (e : Bool) (a : ActionWord) :
    encode (.linkEnable e) = .action a ↔ a.toNat = 0x100 + e.toNat :=
  action_eq_iff (by cases e <;> rfl)

theorem encode_linkConfigure_iff (m : WireMode) (a : ActionWord) :
    encode (.linkConfigure m) = .action a ↔ a.toNat = 0x200 + (modeCode (some m)).toNat :=
  action_eq_iff (by cases m <;> rfl)

theorem encode_linkSend_iff (b : Byte) (a : ActionWord) :
    encode (.linkSend b) = .action a ↔ a.toNat = 0x300 + b.toNat :=
  action_eq_iff (actionWord_toNat 0b011#3 b)

theorem encode_linkSelect_iff (t : Trigger) (a : ActionWord) :
    encode (.linkSelect t) = .action a ↔ a.toNat = 0x400 + (triggerCode t).toNat :=
  action_eq_iff (by cases t <;> rfl)

/-- Settles O3: the words of the table are the encodings of the four link actions. -/
theorem actionWordsAreThoseOfTheTable : Obligations.ActionWordsAreThoseOfTheTable := by
  unfold Obligations.ActionWordsAreThoseOfTheTable
  intro a i
  rw [decodeAction_eq_instr_iff]
  cases i with
  | linkEnable e => simp [encode_linkEnable_iff]
  | linkConfigure m => cases m <;> simp [encode_linkConfigure_iff, modeCode]
  | linkSend b => simp [encode_linkSend_iff]
  | linkSelect t => cases t <;> simp [encode_linkSelect_iff, triggerCode]
  | _ => simp [encode]

/-! ### The worked encodings and the action step -/

/-- Settles O7: each of the 25 words is run through the decoder. -/
theorem workedEncodingsDecode : Obligations.WorkedEncodingsDecode := by
  unfold Obligations.WorkedEncodingsDecode
  decide

/-- Settles O12: the outside driver's step brings what the word at the port's head decodes to. -/
theorem actionStepRunsTheDecodedAction : Obligations.ActionStepRunsTheDecodedAction := by
  unfold Obligations.ActionStepRunsTheDecodedAction
  intro s q a rest hq hp
  rw [step_eq_perform, nextSlot_scheduled hq]
  simp only [slotFetch, actionFetch, setSchedule_actionPort, hp]
  constructor
  · intro i hd
    rw [hd]
    rfl
  · intro hd
    rw [hd]
    rfl

end Sys2Proof.Proofs

/-! # The host commands (spec/40_host_commands.md)

Each command's meaning is said once, outcome by outcome; the statements about commands, the buffer they write and the host's
step read those equations, `memWrite_spec`, and the moves of `SlotStep`. -/

namespace Sys2Proof.Proofs

open Sys2Proof.Machine Sys2Proof.Safety

/-! ### Operands (R112) -/

theorem clampChannel_eq (x : Int) : (clampChannel x : Int) = max 1 (min x 512) := by
  unfold clampChannel clamp Config.capacity
  split
  · omega
  · split <;> omega

theorem eq_clampChannel {c : Nat} {x : Int} (h : (c : Int) = max 1 (min x 512)) : c = clampChannel x := by
  have hx := clampChannel_eq x
  omega

theorem clamp_level (v : Int) : clamp v 0 255 = max 0 (min v 255) := by
  unfold clamp
  split
  · omega
  · split <;> omega

theorem clampLevel_toNat (v : Int) : ((clampLevel v).toNat : Int) = max 0 (min v 255) := by
  rw [clampLevel, clamp_level, BitVec.toNat_ofInt]
  omega

/-! ### The commands, outcome by outcome -/

theorem execInit_active {s : State} (h : s.phase ≠ .idle) : execInit s = .next (refuse .initWhileActive s) :=
  if_pos h

theorem initHeld_iff {s : State} : initHeld s = true ↔ s.phase = .idle ∧ linkIdle s.link = false := by
  simp [initHeld]

theorem execInit_held {s : State} (h : initHeld s = true) : execInit s = .next s := by
  simp [execInit, (initHeld_iff.1 h).1, h]

theorem execInit_ready {s : State} (hp : s.phase = .idle) (hi : linkIdle s.link = true) :
    execInit s = .next (startCycle s) := by
  simp [execInit, initHeld, hp, hi]

theorem execTerm_idle {s : State} (h : s.phase = .idle) : execTerm s = .next s := if_pos h

theorem execTerm_active {s : State} (h : s.phase ≠ .idle) : execTerm s = .next (stopCycle s) := if_neg h

theorem execWrite_eq (ch v : Int) (s : State) :
    execWrite ch v s = .next (raiseCount (clampChannel ch)
      (setValues (memInsert (clampChannel ch) (clampLevel v) s.values) s)) := by
  obtain ⟨h1, hcap⟩ := clampChannel_range ch
  rw [execWrite, memWrite_channel h1 hcap, orFault_ok]

theorem execRead_eq (ch : Int) (s : State) : execRead ch s = .next (setRdata (byteAt (clampChannel ch) s) s) := by
  rw [execRead, memRead_mapped (clampChannel_range ch).2, orFault_ok]

theorem execBufrd_mapped {idx : Nat} {s : State} (h : idx ≤ 512) :
    execBufrd idx s = .next (setRdata (byteAt idx s) s) := by
  rw [execBufrd, if_pos (mapped_iff.2 h), memRead_mapped h, orFault_ok]

theorem execBufrd_unmapped {idx : Nat} {s : State} (h : 512 < idx) :
    execBufrd idx s = .next (refuse .rawIndexRange s) :=
  if_neg (by rw [mapped_iff]; omega)

/-- On a mapped index BUFWR is the write primitive alone (R109). -/
theorem execBufwr_mapped {idx : Nat} {d : Byte} {s t : State} (h : idx ≤ 512) (hw : memWrite idx d s = .ok t) :
    execBufwr idx d s = .next t := by
  rw [execBufwr, if_pos (mapped_iff.2 h), hw, orFault_ok]

theorem execBufwr_unmapped {idx : Nat} {d : Byte} {s : State} (h : 512 < idx) :
    execBufwr idx d s = .next (refuse .rawIndexRange s) :=
  if_neg (by rw [mapped_iff]; omega)

/-! ### WRITE's compare-and-raise (R104) -/

theorem raiseCount_toNat {c : Nat} (hc : (BitVec.ofNat 10 c).toNat = c) (s : State) :
    (raiseCount c s).activeCount.toNat = max s.activeCount.toNat c := by
  unfold raiseCount
  split
  · rw [setActiveCount_activeCount, hc]; omega
  · omega

theorem byteAt_of_values_eq {s t : State} (h : t.values = s.values) (a : Nat) : byteAt a t = byteAt a s := by
  rw [byteAt, byteAt, h]

theorem byteAt_raiseCount (a c : Nat) (s : State) : byteAt a (raiseCount c s) = byteAt a s := by
  obtain ⟨n, hn⟩ := raiseCount_footprint c s
  rw [hn, byteAt_of_values_eq (setActiveCount_values n s)]

/-! ### The buffer commands -/

/-- Settles O17: WRITE is a buffer write at the clamped channel (`memWrite_spec`), then the compare-and-raise. -/
theorem writeStoresAndRaisesTheCount : Obligations.WriteStoresAndRaisesTheCount := by
  unfold Obligations.WriteStoresAndRaisesTheCount
  intro ch v s hm
  obtain ⟨h1, hcap⟩ := clampChannel_range ch
  have h0 : clampChannel ch ≠ 0 := by omega
  obtain ⟨-, -, hsame, hother⟩ := memWrite_spec (memWrite_channel (v := clampLevel v) h1 hcap) hm
  refine ⟨clampChannel_eq ch, clampLevel_toNat v, _, execWrite_eq ch v s, ?frame, ?count, ?stored, ?others⟩
  case frame =>
    obtain ⟨n, hn⟩ := raiseCount_footprint (clampChannel ch)
      (setValues (memInsert (clampChannel ch) (clampLevel v) s.values) s)
    rw [hn]
    rfl
  case count => rw [raiseCount_toNat (clampChannel_count ch), setValues_activeCount]
  case stored => rw [byteAt_raiseCount, hsame, if_neg h0]
  case others =>
    intro a ha
    rw [byteAt_raiseCount, hother a ha]

/-- Settles O18: the operand's clamp is `clampChannel`, an index the buffer maps. -/
theorem readReturnsTheClampedChannel : Obligations.ReadReturnsTheClampedChannel := by
  unfold Obligations.ReadReturnsTheClampedChannel
  intro ch c s hc
  rw [eq_clampChannel hc]
  exact execRead_eq ch s

/-- Settles O19: the clamped operand fits the count register. -/
theorem setcountSetsTheClampedCount : Obligations.SetcountSetsTheClampedCount := by
  unfold Obligations.SetcountSetsTheClampedCount
  intro n s
  exact ⟨BitVec.ofNat 10 (clampChannel n), by rw [clampChannel_count, clampChannel_eq], rfl⟩

/-- Settles O20, by the two outcomes of BUFRD. -/
theorem bufrdReadsTheRawIndex : Obligations.BufrdReadsTheRawIndex := by
  unfold Obligations.BufrdReadsTheRawIndex
  intro idx s
  exact ⟨execBufrd_mapped, byteAt_zero s, execBufrd_unmapped⟩

/-- Settles O21: on a mapped index BUFWR is the write primitive, which does nothing at 0 and obeys `memWrite_spec`. -/
theorem bufwrWritesTheRawIndex : Obligations.BufwrWritesTheRawIndex := by
  unfold Obligations.BufwrWritesTheRawIndex
  intro idx d s hm
  refine ⟨?zero, ?channel, execBufwr_unmapped⟩
  case zero =>
    rintro rfl
    exact execBufwr_mapped (Nat.zero_le 512) (memWrite_zero d s)
  case channel =>
    intro h1 hcap
    have hw := memWrite_channel (v := d) (s := s) h1 hcap
    obtain ⟨-, -, hsame, hother⟩ := memWrite_spec hw hm
    rw [if_neg (by omega)] at hsame
    exact ⟨_, execBufwr_mapped hcap hw, rfl, hsame, hother⟩

/-! ### The zero-fill as a loop (R101) -/

/-- Writing 0x00 at the first index that may be listed leaves nothing listed there. -/
theorem memInsert_zero_wfAbove {n : Nat} {m : Memory} (h : Memory.wfAbove n m = true) :
    Memory.wfAbove (n + 1) (memInsert (n + 1) 0x00#8 m) = true := by
  cases m with
  | nil => rfl
  | cons c rest =>
    obtain ⟨b, w⟩ := c
    obtain ⟨hlt, hcap, hw, hrest⟩ := wfAbove_cons.1 h
    by_cases hb : n + 1 < b
    · simpa [memInsert, hb] using wfAbove_cons.2 ⟨hb, hcap, hw, hrest⟩
    · obtain rfl : n + 1 = b := by omega
      simpa [memInsert] using hrest

theorem eq_nil_of_wfAbove_capacity {m : Memory} (h : Memory.wfAbove Config.capacity m = true) : m = [] := by
  cases m with
  | nil => rfl
  | cons c rest =>
    obtain ⟨hlt, hle, -⟩ := wfAbove_cons.1 h
    omega

/-- After the writes at 0, 1, ..., n nothing is listed up to `n`. -/
theorem zeroLoop_upTo {s : State} (hm : s.values.wf = true) {n : Nat} (hn : n ≤ Config.capacity) :
    ∃ m, (List.range (n + 1)).foldl (fun r k => r >>= memWrite k 0x00#8) (Except.ok s) = .ok (setValues m s) ∧
      Memory.wfAbove n m = true := by
  induction n with
  | zero => exact ⟨s.values, rfl, hm⟩
  | succ n ih =>
    obtain ⟨m, hfold, hwf⟩ := ih (by omega)
    refine ⟨memInsert (n + 1) 0x00#8 m, ?_, memInsert_zero_wfAbove hwf⟩
    rw [List.range_succ, List.foldl_concat, hfold]
    exact memWrite_channel (s := setValues m s) (Nat.le_add_left 1 n) hn

/-- Settles O23: the whole loop leaves a canonical buffer with nothing listed up to CAPACITY, the empty one. -/
theorem zeroFillIsTheLoopOfWrites : Obligations.ZeroFillIsTheLoopOfWrites := by
  unfold Obligations.ZeroFillIsTheLoopOfWrites
  intro s hm
  obtain ⟨m, hfold, hwf⟩ := zeroLoop_upTo hm le_rfl
  rw [hfold, eq_nil_of_wfAbove_capacity hwf]
  rfl

/-! ### INIT and TERM -/

theorem byteAt_of_empty {s : State} (h : s.values = []) (a : Nat) : byteAt a s = 0x00#8 := by
  rw [byteAt, h]
  split <;> rfl

/-- Settles O22: INIT on an idle link performs the cycle's start, `startCycle_idle`. -/
theorem initStartsTheCycle : Obligations.InitStartsTheCycle := by
  unfold Obligations.InitStartsTheCycle
  intro s hp hs hh
  have hi : linkIdle s.link = true := linkIdle_iff.2 ⟨hs, hh⟩
  refine ⟨startCycle s, execInit_ready hp hi, ?_⟩
  rw [startCycle_idle hi]
  refine ⟨byteAt_of_empty rfl, rfl, ?_⟩
  rw [← hh]
  rfl

/-- Settles O24: the first outcome of INIT. -/
theorem initWhileActiveIsRefused : Obligations.InitWhileActiveIsRefused := by
  unfold Obligations.InitWhileActiveIsRefused
  exact fun _ => execInit_active

/-- Settles O25, by the two outcomes of TERM. -/
theorem termStopsTheCycle : Obligations.TermStopsTheCycle := by
  unfold Obligations.TermStopsTheCycle
  exact fun _ => ⟨execTerm_active, execTerm_idle⟩

/-! ### The host's step (R100, R102) -/

theorem held_iff {i : Instr} {s : State} : held i s = true ↔ i = .init ∧ initHeld s = true := by
  cases i <;> simp [held]

section
variable {w : CommandWord} {ws : List CommandWord} {i : Instr} {s : State}

theorem hostFetch_command (hp : s.port = w :: ws) (hd : decodeCommand w = .instr i) (hh : held i s = false) :
    hostFetch s = .run i (setPort ws s) := by
  simp [hostFetch, hp, hd, hh]

theorem hostFetch_held (hp : s.port = w :: ws) (hd : decodeCommand w = .instr i) (hh : held i s = true) :
    hostFetch s = .done s := by
  simp [hostFetch, hp, hd, hh]

end

/-- Settles O9: a command that is not a held INIT leaves the port and is performed. -/
theorem hostStepRunsTheDecodedCommand : Obligations.HostStepRunsTheDecodedCommand := by
  unfold Obligations.HostStepRunsTheDecodedCommand
  intro s q w ws i hq hp hd hready
  have hh : held i (setSchedule q s) = false := by
    rw [Bool.eq_false_iff, Ne, held_iff, initHeld_iff]
    rintro ⟨hi, hidle, hbusy⟩
    have hempty : linkIdle s.link = true := linkIdle_iff.2 (hready hi hidle)
    rw [setSchedule_link, hempty] at hbusy
    cases hbusy
  rw [step_eq_perform, nextSlot_scheduled hq]
  exact congrArg perform (hostFetch_command (s := setSchedule q s) hp hd hh)

/-- The one word of INIT (R72). -/
theorem decodeCommand_initWord : decodeCommand 0x10000000#32 = .instr .init := rfl

/-- Settles O10: in `Idle` a busy link holds the INIT, whose word the host's step leaves at the port. -/
theorem heldInitStaysAtThePort : Obligations.HeldInitStaysAtThePort := by
  unfold Obligations.HeldInitStaysAtThePort
  intro s q ws hq hp hidle hbusy
  have hh : initHeld s = true := by
    rw [initHeld_iff, Bool.eq_false_iff, Ne, linkIdle_iff, not_and_or]
    exact ⟨hidle, hbusy⟩
  refine ⟨?_, execInit_held hh⟩
  rw [step_eq_perform, nextSlot_scheduled hq]
  exact congrArg perform (hostFetch_held (s := setSchedule q s) hp decodeCommand_initWord hh)

/-! ### A written channel reads back (R59, R106) -/

/-- The core and the link write nothing of the buffer. -/
theorem slotStep_values {q : Slot} {u t : State} (h : SlotStep q u t) (hq : q = .core ∨ q = .complete ∨ q = .abandon) :
    t.values = u.values := by
  cases h with
  | idle => rfl
  | refuse => simp at hq
  | command => simp at hq
  | sr _ _ he =>
    obtain ⟨i, tr, l, fs, rs, rfl⟩ := execSr_footprint he
    rfl
  | tc _ _ he =>
    obtain ⟨p, i, n, tr, l, fs, rs, rfl⟩ := execTc_footprint he
    rfl
  | complete =>
    obtain ⟨l, n, hc⟩ := completionStep_footprint u
    rw [hc]
    rfl
  | abandon =>
    obtain ⟨l, n, hc⟩ := abandonStep_footprint u
    rw [hc]
    rfl
  | action => simp at hq

/-- Settles O54: WRITE stores the byte (O17), the step between keeps the buffer, READ of the same channel finds it. -/
theorem aWrittenChannelReadsBack : Obligations.AWrittenChannelReadsBack := by
  unfold Obligations.AWrittenChannelReadsBack
  intro c v s s1 s2 q rest hm _ _ hwrite hsched hq hstep
  obtain ⟨-, hlevel, t1, ht1, -, -, hstored, -⟩ := writeStoresAndRaisesTheCount c v s hm
  obtain rfl : t1 = s1 := by simpa [ht1] using hwrite
  have hmove : SlotStep q (setSchedule rest t1) s2 := by
    simpa only [nextSlot_scheduled hsched] using slotStep_of_step hstep
  have hvalues : s2.values = t1.values := slotStep_values (u := setSchedule rest t1) hmove hq
  refine ⟨_, execRead_eq c s2, ?_⟩
  rw [setRdata_rdata, byteAt_of_values_eq hvalues, hstored, hlevel]

/-! ### Idle is silent (R110, spec/95_test_vectors.md E9) -/

/-- A completion moves a byte from the link to the trace, so what was handed over reads the same (R177). -/
theorem wire_completionStep {s : State} (hf : s.faults = []) : wire (completionStep s) = wire s := by
  cases hs : s.link.shift with
  | none => rw [completionStep_idle hs]
  | some b =>
    cases hh : s.link.hold with
    | none => simp [completionStep_last hf hs hh, wire, inFlight, hs, hh]
    | some x => simp [completionStep_held hf hs hh, wire, inFlight, hs, hh]

/-- An abandon changes nothing or replaces the bytes in flight by `Cut` (R181). -/
theorem wire_abandonStep {s : State} (hf : s.faults = []) :
    wire (abandonStep s) = wire s ∨ wire (abandonStep s) = s.link.trace ++ [.cut] := by
  by_cases hd : s.link.en = true ∨ s.link.shift = none
  · exact .inl (by rw [abandonStep_not_enabled hd])
  · obtain ⟨hen, hs⟩ := not_or.1 hd
    exact .inr (by simp [abandonStep_disabled hf (Bool.eq_false_of_not_eq_true hen) hs, wire, inFlight])

theorem wire_of_link_eq {s t : State} (h : t.link = s.link) : wire t = wire s := by
  rw [wire, wire, inFlight, inFlight, h]

/-- A host command that stays in `Idle` leaves the link alone: TERM does nothing there, and an INIT that is not held leads
to `Break`. -/
theorem command_idle_keeps_link {w : CommandWord} {i : Instr} {s t : State} (hd : decodeCommand w = .instr i)
    (he : exec i s = .next t) (hh : held i s = false) (hp : s.phase = .idle) (hp' : t.phase = .idle) :
    t.link = s.link := by
  obtain ⟨-, -, -, -, -, -, -, hlink, -⟩ := eachRegisterHasItsWriters i s t he
  obtain rfl | ⟨ch, v, rfl⟩ | ⟨ch, rfl⟩ | ⟨n, rfl⟩ | ⟨idx, rfl⟩ | ⟨idx, d, rfl⟩ | rfl := decodeCommand_cases hd
  · have hi : linkIdle s.link = true := by simpa [held, initHeld, hp] using hh
    obtain rfl : startCycle s = t := by simpa [exec, execInit_ready hp hi] using he
    simp [startCycle_idle hi] at hp'
  · simpa using hlink
  · simpa using hlink
  · simpa using hlink
  · simpa using hlink
  · simpa using hlink
  · obtain rfl : s = t := by simpa [exec, execTerm_idle hp] using he
    rfl

theorem slotStep_idle_wire {q : Slot} {u t : State} (h : BlockInv u) (hp : u.phase = .idle) (hp' : t.phase = .idle)
    (hstep : SlotStep q u t) : wire t = wire u ∨ wire t = u.link.trace ++ [.cut] := by
  obtain ⟨-, -, hf, haction⟩ := storeInv_of_blockInv h
  have htrigger : u.trigger = .none := by
    obtain ⟨⟨hidle, -⟩, -⟩ := h
    exact hidle.1 hp
  cases hstep with
  | idle => exact .inl rfl
  | refuse => exact .inl rfl
  | command _ hd hh he =>
    have hlink := command_idle_keeps_link hd he (by rwa [held_setPort]) hp hp'
    exact .inl (wire_of_link_eq hlink)
  | sr ht => simp [htrigger] at ht
  | tc ht => simp [htrigger] at ht
  | complete => exact .inl (wire_completionStep hf)
  | abandon => exact wire_abandonStep hf
  | action hpend => simp [haction] at hpend

theorem nextSlot_core_and_link (s : State) : (nextSlot s).2.phase = s.phase ∧ (nextSlot s).2.link = s.link := by
  obtain ⟨rest, hu⟩ | hu := nextSlot_state s
  · rw [hu]; exact ⟨rfl, rfl⟩
  · rw [hu]; exact ⟨rfl, rfl⟩

/-- Settles O44: of the moves of a step that stays in `Idle`, only the link steps touch the link. -/
theorem nothingIsSentWhileIdle : Obligations.NothingIsSentWhileIdle := by
  unfold Obligations.NothingIsSentWhileIdle
  intro s t h hp hp' hstep
  obtain ⟨hphase, hlink⟩ := nextSlot_core_and_link s
  have hmove := slotStep_idle_wire (nextSlot_keeps_blockInv h) (hphase.trans hp) hp' (slotStep_of_step hstep)
  rwa [wire_of_link_eq hlink, hlink] at hmove

/-! ### A held INIT (R102) -/

/-- In `Idle` a link step of either kind empties the holding register, and with it already empty the shift register too. -/
theorem linkStep_drains {s : State} {q : Slot} {rest : List Slot} (h : BlockInv s) (hp : s.phase = .idle)
    (hq : q = .complete ∨ q = .abandon) (hsched : s.schedule = q :: rest) :
    ∃ l, step s = .next (setLink l (setSchedule rest s)) ∧ l.hold = none ∧ (s.link.hold = none → l.shift = none) := by
  obtain ⟨-, -, hf, -⟩ := storeInv_of_blockInv h
  have hbehind := shift_of_hold h
  have hen : s.link.en = false := by
    obtain ⟨-, ⟨-, -, -, -, -, -, hoff⟩, -⟩ := h
    exact hoff hp
  rw [step_eq_perform, nextSlot_scheduled hsched]
  by_cases hs : s.link.shift = none
  · have hh : s.link.hold = none := by
      by_contra hne
      exact hbehind hne hs
    refine ⟨s.link, ?_, hh, fun _ => hs⟩
    obtain rfl | rfl := hq
    · exact congrArg _ (completionStep_idle (s := setSchedule rest s) hs)
    · exact congrArg _ (abandonStep_not_enabled (s := setSchedule rest s) (.inr hs))
  · obtain rfl | rfl := hq
    · obtain ⟨b, hb⟩ := Option.ne_none_iff_exists'.1 hs
      cases hh : s.link.hold with
      | none => exact ⟨_, congrArg _ (completionStep_last (s := setSchedule rest s) hf hb hh), hh, fun _ => rfl⟩
      | some x => exact ⟨_, congrArg _ (completionStep_held (s := setSchedule rest s) hf hb hh), rfl, by simp⟩
    · exact ⟨_, congrArg _ (abandonStep_disabled (s := setSchedule rest s) hf hen hs), rfl, fun _ => rfl⟩

theorem step_init_ready {s : State} {q : List Slot} {ws : List CommandWord} (hsched : s.schedule = .host :: q)
    (hport : s.port = 0x10000000#32 :: ws) (hp : s.phase = .idle) (hi : linkIdle s.link = true) :
    step s = .next (startCycle { s with schedule := q, port := ws }) :=
  (hostStepRunsTheDecodedCommand s q _ ws .init hsched hport decodeCommand_initWord fun _ _ => linkIdle_iff.1 hi).trans
    (execInit_ready hp hi)

/-- Settles O52: the first link step empties the holding register, the second the shift register, and the host's step then
performs the INIT. -/
theorem aHeldInitIsPerformedAfterTwoLinkSteps : Obligations.AHeldInitIsPerformedAfterTwoLinkSteps := by
  unfold Obligations.AHeldInitIsPerformedAfterTwoLinkSteps
  intro s l1 l2 q ws h hp h1 h2 hsched hport
  obtain ⟨k1, hstep1, hhold1, -⟩ := linkStep_drains h hp h1 hsched
  have hinv := everyStepKeepsTheInvariant _ _ h hstep1
  obtain ⟨k2, hstep2, hhold2, hshift2⟩ := linkStep_drains hinv hp h2 rfl
  have hi : linkIdle k2 = true := linkIdle_iff.2 ⟨hshift2 hhold1, hhold2⟩
  have hstep3 := step_init_ready
    (s := setLink k2 (setSchedule (.host :: q) (setLink k1 (setSchedule (l2 :: .host :: q) s)))) rfl hport hp hi
  refine ⟨_, (runSteps_next hstep1).trans ((runSteps_next hstep2).trans (runSteps_next hstep3)), ?_⟩
  rw [startCycle_idle hi]
  exact ⟨rfl, rfl, rfl, rfl, rfl⟩

end Sys2Proof.Proofs

/-! # The notification handlers (spec/41_event_handlers.md)

The core's step brings the handler that the trigger selects and the link requests; each case rule of the two handlers is
then one equation. -/

namespace Sys2Proof.Proofs

open Sys2Proof.Machine Sys2Proof.Safety

/-! ### Delivery (R140) -/

theorem coreFetch_sr {s : State} (ht : s.trigger = .sr) (hl : srq s.link = true) : coreFetch s = .run .sr s := by
  simp [coreFetch, (decodeDelivery_sr s).2 ⟨ht, hl⟩]

theorem coreFetch_tc {s : State} (ht : s.trigger = .tc) (hl : tcq s.link = true) :
    coreFetch s = .run .tc (enterHandler .tc s) := by
  simp [coreFetch, (decodeDelivery_tc s).2 ⟨ht, hl⟩]

theorem coreFetch_not_enabled {s : State} (h : enabled .core s = false) : coreFetch s = .done s :=
  slotFetch_not_enabled h

theorem step_scheduled {s : State} {a : Slot} {q : List Slot} (hq : s.schedule = a :: q) :
    step s = perform (slotFetch a (setSchedule q s)) := by
  rw [step_eq_perform, nextSlot_scheduled hq]

/-- Settles O11, by the two notifications that can be delivered and the core that is not enabled. -/
theorem coreStepRunsTheSelectedHandler : Obligations.CoreStepRunsTheSelectedHandler := by
  unfold Obligations.CoreStepRunsTheSelectedHandler
  intro s q hq
  rw [step_scheduled hq]
  refine ⟨?sr, ?tc, ?neither⟩
  case sr =>
    intro ht hen hhold
    exact congrArg perform (coreFetch_sr (s := setSchedule q s) ht (srq_iff.2 ⟨hen, hhold⟩))
  case tc =>
    intro ht hen htxc hshift hhold
    exact congrArg perform (coreFetch_tc (s := setSchedule q s) ht (tcq_iff.2 ⟨hen, htxc, hshift, hhold⟩))
  case neither =>
    intro hsr htc
    have hoff : enabled .core (setSchedule q s) = false := by
      rw [Bool.eq_false_iff, Ne, enabled_core, srq_iff, tcq_iff]
      exact not_or.2 ⟨hsr, htc⟩
    exact congrArg perform (coreFetch_not_enabled hoff)

/-! ### The case rules (R142 to R148) -/

/-- A byte taken with the holding register empty, register by register (R175). -/
theorem acceptByte_of_hold_empty {b : Byte} {l : Link} (hh : l.hold = none) :
    acceptByte b l = { l with
      shift := if l.shift = none then some b else l.shift
      hold := if l.shift = none then none else some b
      txc := false } := by
  by_cases hs : l.shift = none
  · rw [acceptByte_empty hs, if_pos hs, if_pos hs, ← hh]
  · rw [acceptByte_behind hs, if_neg hs, if_neg hs]

/-- Settles O26: the buffer maps the index, the link takes the byte, and the cursor's successor fits its register. -/
theorem srSendsTheNextChannel : Obligations.SrSendsTheNextChannel := by
  unfold Obligations.SrSendsTheNextChannel
  intro s hp h1 hle hcap hen hhold
  have hmapped : s.index.toNat ≤ Config.capacity := hle.trans hcap
  refine ⟨s.index + 1, succ_count hmapped, ?_⟩
  have htrigger : (if s.snap.toNat < s.index.toNat + 1 then Trigger.tc else s.trigger) =
      if s.index.toNat = s.snap.toNat then .tc else s.trigger := by
    congr 1
    exact propext ⟨fun h => by omega, fun h => by omega⟩
  calc exec .sr s
    _ = sendChannel s := execSr_sending (sending_iff.2 ⟨hp, h1, hle⟩)
    _ = .next (advanceCursor (setLink (acceptByte (byteAt s.index.toNat s) s.link) s)) := by
      rw [sendChannel, memRead_mapped hmapped, orFault_ok, leaveHandler_eq, linkSend_ready hen hhold]
    _ = _ := by
      rw [advanceCursor_eq, setData_of_data (by rw [setLink_phase, hp]), acceptByte_of_hold_empty hhold, ← htrigger]
      rfl

/-- Settles O27, by the outcomes of the two handlers away from their case rules. -/
theorem handlersHaveNoEffectElsewhere : Obligations.HandlersHaveNoEffectElsewhere := by
  unfold Obligations.HandlersHaveNoEffectElsewhere
  intro s
  refine ⟨fun hno => ?sr, ?tc⟩
  case sr =>
    have hsend : sending s = false := by rwa [Bool.eq_false_iff, Ne, sending_iff]
    exact execSr_elsewhere hsend
  case tc =>
    rintro (hp | ⟨hp, hne⟩)
    · exact execTc_idle hp
    · have hdrain : draining s = false := by
        rw [Bool.eq_false_iff, Ne, draining_iff]
        exact fun h => hne h.2
      exact execTc_data_not_draining hp hdrain

/-- Settles O29: on an idle link the mode is set and the start code taken without a fault. -/
theorem tcInBreakSendsTheStartCode : Obligations.TcInBreakSendsTheStartCode := by
  unfold Obligations.TcInBreakSendsTheStartCode
  intro s hp hen hshift hhold
  calc exec .tc s
    _ = .next (sendStartCode s) := execTc_brk hp
    _ = _ := by rw [sendStartCode_idle hen (linkIdle_iff.2 ⟨hshift, hhold⟩)]; rfl

/-- Settles O30: the handler's writes are those of `beginData`. -/
theorem tcInStartCodeBeginsTheData : Obligations.TcInStartCodeBeginsTheData := by
  unfold Obligations.TcInStartCodeBeginsTheData
  exact fun _ => execTc_startCode

/-- Settles O31: on an idle link the mode is set and the break byte taken without a fault. -/
theorem tcAfterTheLastByteStartsTheNextBreak : Obligations.TcAfterTheLastByteStartsTheNextBreak := by
  unfold Obligations.TcAfterTheLastByteStartsTheNextBreak
  intro s hp hdrain hen hshift hhold
  calc exec .tc s
    _ = .next (sendBreak s) := execTc_draining (draining_iff.2 ⟨hp, hdrain⟩)
    _ = _ := by rw [sendBreak_idle hen (linkIdle_iff.2 ⟨hshift, hhold⟩)]; rfl

end Sys2Proof.Proofs

/-! # The moves of the block (spec/20_memory.md R58, spec/41_event_handlers.md R151)

Under the invariant a step is one of a few moves: a command that leaves the cursor and the link alone, INIT on an idle
link, TERM, a delivered notification (`Handled`), or a link step. That no move stops or raises a fault, that a core step
hands over at most one byte, and that every move keeps the shape of the frame are read off them. -/

namespace Sys2Proof.Proofs

open Sys2Proof.Machine Sys2Proof.Safety

/-! ### Host commands (spec/60_exceptions.md R213) -/

/-- The cursor, the link and the fault marks read the same in both states. -/
structure SameCore (s t : State) : Prop where
  phase : t.phase = s.phase
  index : t.index = s.index
  snap : t.snap = s.snap
  trigger : t.trigger = s.trigger
  link : t.link = s.link
  faults : t.faults = s.faults
  faultRecords : t.faultRecords = s.faultRecords

theorem sameCore_refl (s : State) : SameCore s s := ⟨rfl, rfl, rfl, rfl, rfl, rfl, rfl⟩

/-- The host's fields may be written. -/
theorem sameCore_hostState {s : State} {m : Memory} {n : Count} {b : Byte} {r : Bool} {rr : List RefusalReason}
    {ws : List CommandWord} :
    SameCore s { s with values := m, activeCount := n, rdata := b, refused := r, refusals := rr, port := ws } :=
  ⟨rfl, rfl, rfl, rfl, rfl, rfl, rfl⟩

/-- Every command but INIT and TERM leaves the core alone. -/
theorem command_sameCore {w : CommandWord} {i : Instr} {s t : State} (hd : decodeCommand w = .instr i)
    (hinit : i ≠ .init) (hterm : i ≠ .term) (he : exec i s = .next t) : SameCore s t := by
  obtain rfl | ⟨ch, v, rfl⟩ | ⟨ch, rfl⟩ | ⟨n, rfl⟩ | ⟨idx, rfl⟩ | ⟨idx, d, rfl⟩ | rfl := decodeCommand_cases hd
  · exact absurd rfl hinit
  · obtain ⟨m, n, rfl⟩ := execWrite_footprint he
    exact sameCore_hostState
  · obtain ⟨b, rfl⟩ := execRead_footprint he
    exact sameCore_hostState
  · cases he
    exact sameCore_hostState
  · obtain ⟨b, r, rr, rfl⟩ := execBufrd_footprint he
    exact sameCore_hostState
  · obtain ⟨m, r, rr, rfl⟩ := execBufwr_footprint he
    exact sameCore_hostState
  · exact absurd rfl hterm

/-- A command that is not held starts the cycle on an idle link, stops a running one, or leaves the core alone. -/
theorem command_moves {w : CommandWord} {i : Instr} {s t : State} (hd : decodeCommand w = .instr i)
    (hh : held i s = false) (he : exec i s = .next t) :
    (i = .init ∧ s.phase = .idle ∧ linkIdle s.link = true ∧ t = startCycle s) ∨
    (i = .term ∧ s.phase ≠ .idle ∧ t = stopCycle s) ∨ SameCore s t := by
  by_cases hinit : i = .init
  · subst hinit
    by_cases hp : s.phase = .idle
    · have hi : linkIdle s.link = true := by simpa [held, initHeld, hp] using hh
      cases (execInit_ready hp hi).symm.trans he
      exact .inl ⟨rfl, hp, hi, rfl⟩
    · cases (execInit_active hp).symm.trans he
      exact .inr (.inr sameCore_hostState)
  · by_cases hterm : i = .term
    · subst hterm
      by_cases hp : s.phase = .idle
      · cases (execTerm_idle hp).symm.trans he
        exact .inr (.inr (sameCore_refl s))
      · cases (execTerm_active hp).symm.trans he
        exact .inr (.inl ⟨rfl, hp, rfl⟩)
    · exact .inr (.inr (command_sameCore hd hinit hterm he))

/-- A host command always answers a next state. -/
theorem command_answers {w : CommandWord} {i : Instr} (hd : decodeCommand w = .instr i) (s : State) :
    ∃ t, exec i s = .next t := by
  obtain rfl | ⟨ch, v, rfl⟩ | ⟨ch, rfl⟩ | ⟨n, rfl⟩ | ⟨idx, rfl⟩ | ⟨idx, d, rfl⟩ | rfl := decodeCommand_cases hd
  · by_cases hp : s.phase = .idle
    · cases hi : linkIdle s.link with
      | true => exact ⟨_, execInit_ready hp hi⟩
      | false => exact ⟨_, execInit_held (initHeld_iff.2 ⟨hp, hi⟩)⟩
    · exact ⟨_, execInit_active hp⟩
  · exact ⟨_, execWrite_eq ch v s⟩
  · exact ⟨_, execRead_eq ch s⟩
  · exact ⟨_, rfl⟩
  · by_cases h : idx ≤ 512
    · exact ⟨_, execBufrd_mapped h⟩
    · exact ⟨_, execBufrd_unmapped (by omega)⟩
  · by_cases h : idx ≤ 512
    · by_cases h0 : idx = 0
      · subst h0
        exact ⟨_, execBufwr_mapped h (memWrite_zero d s)⟩
      · exact ⟨_, execBufwr_mapped h (memWrite_channel (by omega) h)⟩
    · exact ⟨_, execBufwr_unmapped (by omega)⟩
  · by_cases hp : s.phase = .idle
    · exact ⟨_, execTerm_idle hp⟩
    · exact ⟨_, execTerm_active hp⟩

/-! ### Delivered notifications -/

/-- What a delivered notification does under the invariant: one of the four case rules R142 and R145 to R147, its byte, if it
sends one, taken by the link. -/
inductive Handled (s : State) : State → Prop where
  /-- SR in `Data(i)`: channel `i`. -/
  | channel (hp : s.phase = .data) (hindex : 1 ≤ s.index.toNat ∧ s.index.toNat ≤ s.snap.toNat)
      (hsnap : s.snap.toNat ≤ Config.capacity) (hhold : s.link.hold = none) (hmode : s.link.mode = some .dat) :
      Handled s { s with
        index := s.index + 1
        trigger := if s.snap.toNat < s.index.toNat + 1 then .tc else s.trigger
        link := acceptByte (byteAt s.index.toNat s) s.link }
  /-- TC in `Break`: the start code. -/
  | startCode (hp : s.phase = .brk) (hi : linkIdle s.link = true) :
      Handled s { s with
        phase := .startCode, snap := s.activeCount
        link := { s.link with mode := some .dat, shift := some Config.startCode, txc := false } }
  /-- TC in `StartCode`: no byte. -/
  | beginData (hp : s.phase = .startCode) (hsnap : 1 ≤ s.snap.toNat ∧ s.snap.toNat ≤ Config.capacity) :
      Handled s { s with phase := .data, index := 1#10, trigger := .sr, link := { s.link with txc := false } }
  /-- TC in `Data(snap + 1)`: the next break byte. -/
  | nextBreak (hp : s.phase = .data) (hi : linkIdle s.link = true) :
      Handled s { s with
        phase := .brk, link := { s.link with mode := some .brk, shift := some Config.breakByte, txc := false } }

theorem sr_handled {s : State} (h : BlockInv s) (ht : s.trigger = .sr) (hl : srq s.link = true) :
    ∃ t, execSr s = .next t ∧ Handled s t := by
  obtain ⟨hp, h1, hle, hcap⟩ := blockInv_sr h ht
  refine ⟨_, execSr_delivered h ht hl, ?_⟩
  obtain ⟨-, ⟨-, -, hmode, -⟩, -⟩ := h
  rw [advanceCursor_eq, setData_of_data (by rw [setLink_phase, hp])]
  exact .channel hp ⟨h1, hle⟩ hcap (srq_iff.1 hl).2 (hmode (.inr hp))

theorem tc_handled {s : State} (h : BlockInv s) (ht : s.trigger = .tc) (hl : tcq s.link = true) :
    ∃ t, execTc (enterHandler .tc s) = .next t ∧ Handled s t := by
  obtain ⟨hen, -, hshift, hhold⟩ := tcq_iff.1 hl
  have hi : linkIdle s.link = true := linkIdle_iff.2 ⟨hshift, hhold⟩
  cases hp : s.phase with
  | idle =>
    obtain ⟨⟨hidle, -⟩, -⟩ := h
    simp [hidle.1 hp] at ht
  | brk =>
    refine ⟨_, execTc_brk (s := enterHandler .tc s) hp, ?_⟩
    rw [sendStartCode_idle (s := enterHandler .tc s) hen hi]
    exact .startCode hp hi
  | startCode =>
    obtain ⟨-, ⟨-, -, -, -, -, hsnap, -⟩, -⟩ := h
    exact ⟨_, execTc_startCode (s := enterHandler .tc s) hp, .beginData hp (hsnap hp)⟩
  | data =>
    refine ⟨_, execTc_draining (s := enterHandler .tc s) (draining_of_tc (s := s) h hp ht), ?_⟩
    rw [sendBreak_idle (s := enterHandler .tc s) hen hi]
    exact .nextBreak hp hi

/-- The core, where it is enabled, delivers its notification. -/
theorem core_handled {s : State} (h : BlockInv s) (hon : enabled .core s = true) :
    ∃ t, perform (coreFetch s) = .next t ∧ Handled s t := by
  obtain ⟨ht, hl⟩ | ⟨ht, hl⟩ := enabled_core.1 hon
  · rw [coreFetch_sr ht hl]
    exact sr_handled h ht hl
  · rw [coreFetch_tc ht hl]
    exact tc_handled h ht hl

/-! ### Every move -/

/-- The moves under the invariant, the due slot already taken. -/
inductive Move : Slot → State → State → Prop where
  /-- Nothing of the core's or the link's is written. -/
  | quiet {q : Slot} {s t : State} (hsame : SameCore s t) : Move q s t
  /-- INIT on an idle link (R101). -/
  | start {s : State} (ws : List CommandWord) (hport : s.port = 0x10000000#32 :: ws) (hp : s.phase = .idle)
      (hi : linkIdle s.link = true) : Move .host s (startCycle (setPort ws s))
  /-- TERM in a running cycle (R110). -/
  | stop {s : State} {ws : List CommandWord} (hport : s.port = 0x70000000#32 :: ws) (hp : s.phase ≠ .idle) :
      Move .host s (stopCycle (setPort ws s))
  /-- A delivered notification (R140). -/
  | handled {s t : State} (hmove : Handled s t) : Move .core s t
  /-- The completion step (R177). -/
  | complete (s : State) : Move .complete s (completionStep s)
  /-- The abandon step, enabled only after TERM (R181). -/
  | abandon {s : State} (hp : s.phase = .idle) : Move .abandon s (abandonStep s)

/-- INIT has one word. -/
theorem word_of_init {w : CommandWord} (h : decodeCommand w = .instr .init) : w = 0x10000000#32 := by
  obtain ⟨-, hw⟩ := acceptedCommandWordEncodesBack w _ h
  cases hw; rfl

/-- TERM has one word. -/
theorem word_of_term {w : CommandWord} (h : decodeCommand w = .instr .term) : w = 0x70000000#32 := by
  obtain ⟨-, hw⟩ := acceptedCommandWordEncodesBack w _ h
  cases hw; rfl

theorem sameCore_of_setPort {ws : List CommandWord} {s t : State} (h : SameCore (setPort ws s) t) : SameCore s t :=
  ⟨h.phase, h.index, h.snap, h.trigger, h.link, h.faults, h.faultRecords⟩

/-- A command of the host's that is not held is a move. -/
theorem move_of_command {w : CommandWord} {ws : List CommandWord} {i : Instr} {s t : State} (hport : s.port = w :: ws)
    (hd : decodeCommand w = .instr i) (hh : held i s = false) (he : exec i (setPort ws s) = .next t) :
    Move .host s t := by
  obtain ⟨rfl, hp, hi, rfl⟩ | ⟨rfl, hp, rfl⟩ | hsame := command_moves hd (by rwa [held_setPort]) he
  · obtain rfl := word_of_init hd
    exact .start ws hport hp hi
  · obtain rfl := word_of_term hd
    exact .stop hport hp
  · exact .quiet (sameCore_of_setPort hsame)

/-- Whatever slot is due, its step answers a next state and is a move. -/
theorem slot_moves {s : State} (h : BlockInv s) (q : Slot) : ∃ t, perform (slotFetch q s) = .next t ∧ Move q s t := by
  obtain ⟨-, -, -, haction⟩ := storeInv_of_blockInv h
  cases q with
  | host =>
    obtain hq | ⟨w, ws, r, -, -, -, hq⟩ | ⟨w, ws, i, -, hport, hd, hh, hq⟩ | ⟨hq, -⟩ | ⟨hq, -⟩ | ⟨hq, -⟩ | ⟨hq, -⟩ :=
      slotFetch_cases (q := .host) haction
    · exact ⟨s, by rw [hq]; rfl, .quiet (sameCore_refl s)⟩
    · exact ⟨refuse r (setPort ws s), by rw [hq]; rfl, .quiet sameCore_hostState⟩
    · obtain ⟨t, he⟩ := command_answers hd (setPort ws s)
      exact ⟨t, by rw [hq]; exact he, move_of_command hport hd hh he⟩
    all_goals cases hq
  | core =>
    cases hon : enabled .core s with
    | true =>
      obtain ⟨t, ht, hmove⟩ := core_handled h hon
      exact ⟨t, ht, .handled hmove⟩
    | false => exact ⟨s, congrArg perform (coreFetch_not_enabled hon), .quiet (sameCore_refl s)⟩
  | complete => exact ⟨_, rfl, .complete s⟩
  | abandon =>
    by_cases hp : s.phase = .idle
    · exact ⟨_, rfl, .abandon hp⟩
    · refine ⟨s, ?_, .quiet (sameCore_refl s)⟩
      exact congrArg _ (abandonStep_not_enabled (.inl (linkEnabled_of_active h hp)))
  | action =>
    have hoff : enabled .action s = false := by simp [enabled, haction]
    exact ⟨s, by rw [slotFetch_not_enabled hoff]; rfl, .quiet (sameCore_refl s)⟩

theorem move_of_perform {q : Slot} {s t : State} (h : BlockInv s) (hstep : perform (slotFetch q s) = .next t) :
    Move q s t := by
  obtain ⟨u, hu, hmove⟩ := slot_moves h q
  cases hu.symm.trans hstep
  exact hmove

theorem step_moves {s : State} (h : BlockInv s) :
    ∃ t, step s = .next t ∧ Move (nextSlot s).1 (nextSlot s).2 t :=
  slot_moves (nextSlot_keeps_blockInv h) _

theorem move_of_step {s t : State} (h : BlockInv s) (hstep : step s = .next t) :
    Move (nextSlot s).1 (nextSlot s).2 t :=
  move_of_perform (nextSlot_keeps_blockInv h) hstep

/-! ### No stop and no fault (R152) -/

theorem move_keeps_faultRecords {q : Slot} {s t : State} (hmove : Move q s t) :
    t.faultRecords = s.faultRecords := by
  cases hmove with
  | quiet hsame => exact hsame.faultRecords
  | start ws hport hp hi => rw [startCycle_idle (s := setPort ws s) hi]; rfl
  | stop => rfl
  | handled hmove => cases hmove <;> rfl
  | complete =>
    obtain ⟨l, n, hc⟩ := completionStep_footprint s
    rw [hc]; rfl
  | abandon =>
    obtain ⟨l, n, hc⟩ := abandonStep_footprint s
    rw [hc]; rfl

theorem nextSlot_faultRecords (s : State) : (nextSlot s).2.faultRecords = s.faultRecords := by
  obtain ⟨rest, hu⟩ | hu := nextSlot_state s
  · rw [hu]; rfl
  · rw [hu]; rfl

/-- Settles O39: every slot has a move, none records a fault, and the invariant it keeps (O38) holds no fault code. -/
theorem everyReachableStateHasASuccessor : Obligations.EveryReachableStateHasASuccessor := by
  unfold Obligations.EveryReachableStateHasASuccessor
  intro s h
  obtain ⟨t, hstep, hmove⟩ := step_moves h
  obtain ⟨-, -, hfaults, -⟩ := storeInv_of_blockInv (everyStepKeepsTheInvariant s t h hstep)
  exact ⟨t, hstep, hfaults, (move_keeps_faultRecords hmove).trans (nextSlot_faultRecords s)⟩

/-! ### The wire (R150, R151) -/

theorem wire_of_linkIdle {s : State} (hi : linkIdle s.link = true) : wire s = s.link.trace := by
  obtain ⟨hs, hh⟩ := linkIdle_iff.1 hi
  simp [wire, inFlight, hs, hh]

/-- A byte sent on an idle link, in whatever mode the link was given before, is the wire's next (R175). -/
theorem wire_send_idle {s t : State} {m : WireMode} {b : Byte} (hi : linkIdle s.link = true)
    (htrace : t.link.trace = s.link.trace) (hmode : t.link.mode = some m) (hshift : t.link.shift = some b)
    (hhold : t.link.hold = s.link.hold) : wire t = wire s ++ [.sent (some m) b] := by
  rw [wire_of_linkIdle hi, wire, inFlight, htrace, hmode, hshift, hhold, (linkIdle_iff.1 hi).2]
  rfl

/-- A byte sent with the holding register empty is the wire's next, in the mode in force (R175). -/
theorem wire_acceptByte {s t : State} {b : Byte} (hhold : s.link.hold = none) (ht : t.link = acceptByte b s.link) :
    wire t = wire s ++ [.sent s.link.mode b] := by
  cases hs : s.link.shift with
  | none => simp [wire, inFlight, ht, acceptByte, hs, hhold]
  | some x => simp [wire, inFlight, ht, acceptByte, hs, hhold]

theorem handled_sends_at_most_one {s t : State} (hmove : Handled s t) :
    wire t = wire s ∨ ∃ b : Byte, wire t = wire s ++ [.sent t.link.mode b] := by
  cases hmove with
  | channel _ _ _ hhold =>
    refine .inr ⟨byteAt s.index.toNat s, ?_⟩
    rw [wire_acceptByte hhold rfl, acceptByte_mode]
  | startCode _ hi => exact .inr ⟨Config.startCode, wire_send_idle hi rfl rfl rfl rfl⟩
  | beginData => exact .inl rfl
  | nextBreak _ hi => exact .inr ⟨Config.breakByte, wire_send_idle hi rfl rfl rfl rfl⟩

/-- Settles O58: a core step is quiet or a delivered notification. -/
theorem aCoreStepSendsAtMostOneByte : Obligations.ACoreStepSendsAtMostOneByte := by
  unfold Obligations.ACoreStepSendsAtMostOneByte
  intro s t q h hq hstep
  have hmove : Move .core (setSchedule q s) t := by
    simpa only [nextSlot_scheduled hq] using move_of_step h hstep
  cases hmove with
  | quiet hsame => exact .inl (wire_of_link_eq hsame.link)
  | handled hhandled => exact handled_sends_at_most_one (s := setSchedule q s) hhandled

/-! ### The shape of the frame (R150) -/

theorem frameInv_idle {s : State} (hp : s.phase = .idle) : FrameInv s := by
  simp [FrameInv, hp]

theorem frameInv_brk_iff {s : State} (hp : s.phase = .brk) :
    FrameInv s ↔ ∃ before, wire s = before ++ [TraceEntry.sent (some .brk) Config.breakByte] := by
  simp [FrameInv, hp]

theorem frameInv_startCode_iff {s : State} (hp : s.phase = .startCode) :
    FrameInv s ↔ ∃ before, wire s = before ++ cycleSoFar [] := by
  simp [FrameInv, hp]

theorem frameInv_data_iff {s : State} (hp : s.phase = .data) :
    FrameInv s ↔ ∃ before ds, ds.length + 1 = s.index.toNat ∧ wire s = before ++ cycleSoFar ds := by
  simp [FrameInv, hp]

/-- `FrameInv` reads the phase, the index and the wire. -/
theorem frameInv_congr {s t : State} (hphase : t.phase = s.phase) (hindex : t.index = s.index)
    (hwire : wire t = wire s) : FrameInv t ↔ FrameInv s := by
  rw [FrameInv, FrameInv, hphase, hindex, hwire]

theorem cycleSoFar_concat (ds : List Byte) (b : Byte) :
    cycleSoFar (ds ++ [b]) = cycleSoFar ds ++ [.sent (some .dat) b] := by
  simp [cycleSoFar]

/-- Each case rule adds to the wire the byte its new phase speaks of. -/
theorem handled_keeps_frameInv {s t : State} (hframe : FrameInv s) (hmove : Handled s t) : FrameInv t := by
  cases hmove with
  | channel hp hindex hsnap hhold hmode =>
    obtain ⟨before, ds, hlen, hwire⟩ := (frameInv_data_iff hp).1 hframe
    refine (frameInv_data_iff ?_).2 ⟨before, ds ++ [byteAt s.index.toNat s], ?_, ?_⟩
    · exact hp
    · rw [List.length_append, List.length_singleton, hlen]
      exact (succ_count (by omega)).symm
    · rw [wire_acceptByte hhold rfl, hwire, hmode, cycleSoFar_concat, List.append_assoc]
  | startCode hp hi =>
    obtain ⟨before, hwire⟩ := (frameInv_brk_iff hp).1 hframe
    refine (frameInv_startCode_iff rfl).2
      ⟨before, Eq.trans (b := wire s ++ [.sent (some .dat) Config.startCode]) ?_ ?_⟩
    · exact wire_send_idle hi rfl rfl rfl rfl
    · rw [hwire, List.append_assoc]
      rfl
  | beginData hp =>
    obtain ⟨before, hwire⟩ := (frameInv_startCode_iff hp).1 hframe
    exact (frameInv_data_iff rfl).2 ⟨before, [], rfl, hwire⟩
  | nextBreak hp hi => exact (frameInv_brk_iff rfl).2 ⟨wire s, wire_send_idle hi rfl rfl rfl rfl⟩

theorem move_keeps_frameInv {q : Slot} {s t : State} (hf : s.faults = []) (hframe : FrameInv s) (hmove : Move q s t) :
    FrameInv t := by
  cases hmove with
  | quiet hsame => exact (frameInv_congr hsame.phase hsame.index (wire_of_link_eq hsame.link)).2 hframe
  | start ws hport hp hi =>
    rw [startCycle_idle (s := setPort ws s) hi]
    exact (frameInv_brk_iff rfl).2 ⟨wire s, wire_send_idle hi rfl rfl rfl rfl⟩
  | stop => exact frameInv_idle rfl
  | handled hhandled => exact handled_keeps_frameInv hframe hhandled
  | complete =>
    obtain ⟨l, n, hc⟩ := completionStep_footprint s
    exact (frameInv_congr (by rw [hc]; rfl) (by rw [hc]; rfl) (wire_completionStep hf)).2 hframe
  | abandon hp =>
    obtain ⟨l, n, hc⟩ := abandonStep_footprint s
    exact frameInv_idle (by rw [hc]; exact hp)

theorem nextSlot_keeps_frameInv {s : State} (h : FrameInv s) : FrameInv (nextSlot s).2 := by
  obtain ⟨rest, hu⟩ | hu := nextSlot_state s
  · rw [hu]; exact h
  · rw [hu]; exact h

/-- Settles O40: taking the slot leaves the frame alone, and every move keeps its shape. -/
theorem everyStepKeepsTheFrameShape : Obligations.EveryStepKeepsTheFrameShape := by
  unfold Obligations.EveryStepKeepsTheFrameShape
  intro s t h hframe hstep
  obtain ⟨-, -, hf, -⟩ := storeInv_of_blockInv (nextSlot_keeps_blockInv h)
  exact move_keeps_frameInv hf (nextSlot_keeps_frameInv hframe) (move_of_step h hstep)

end Sys2Proof.Proofs

/-! # One cycle of the block (spec/41_event_handlers.md R150, R152, R153)

The mode changes only on an idle link; two completions raise the request the core waits for; and a whole cycle, each byte
completed before the next notification is taken, step by step. -/

namespace Sys2Proof.Proofs

open Sys2Proof.Machine Sys2Proof.Safety

/-! ### The mode (R153) -/

theorem linkSend_mode (b : Byte) (s : State) : (linkSend b s).link.mode = s.link.mode := by
  obtain ⟨-, -, h⟩ | ⟨f, h⟩ := linkSend_cases b s
  · rw [h, setLink_link, acceptByte_mode]
  · rw [h, raiseFault_link]

theorem showOnWire_mode (e : TraceEntry) (s : State) : (showOnWire e s).link.mode = s.link.mode := by
  unfold showOnWire
  split
  · rfl
  · rfl

theorem shiftOut_mode (l : Link) : (shiftOut l).mode = l.mode := by
  unfold shiftOut
  split
  · rfl
  · rfl

theorem completionStep_mode (s : State) : (completionStep s).link.mode = s.link.mode := by
  unfold completionStep
  split
  · exact (shiftOut_mode _).trans (showOnWire_mode _ s)
  · rfl

theorem abandonStep_mode (s : State) : (abandonStep s).link.mode = s.link.mode := by
  unfold abandonStep
  split
  · exact showOnWire_mode _ s
  · rfl

/-- SR sends in the mode it finds (R142). -/
theorem execSr_mode {s t : State} (h : execSr s = .next t) : t.link.mode = s.link.mode := by
  cases hd : sending s with
  | false =>
    rw [execSr_elsewhere hd] at h
    cases h; rfl
  | true =>
    rw [execSr_sending hd] at h
    obtain ⟨b, -, h⟩ := orFault_next h
    rw [leaveHandler_eq, advanceCursor_eq] at h
    cases h
    exact linkSend_mode b s

theorem slotStep_mode {q : Slot} {s t : State} (hq : q ≠ .action) (hstep : SlotStep q s t)
    (hne : t.link.mode ≠ s.link.mode) :
    linkIdle s.link = true ∧
      ((q = .core ∧ s.trigger = .tc ∧ s.link.txc = true) ∨
        (q = .host ∧ s.phase = .idle ∧ s.port.head? = some 0x10000000#32)) := by
  cases hstep with
  | idle => exact absurd rfl hne
  | refuse => exact absurd rfl hne
  | command hport hd hh he =>
    obtain ⟨rfl, hp, hi, -⟩ | ⟨-, -, rfl⟩ | hsame := command_moves hd (by rwa [held_setPort]) he
    · obtain rfl := word_of_init hd
      exact ⟨hi, .inr ⟨rfl, hp, by rw [hport]; rfl⟩⟩
    · exact absurd rfl hne
    · exact absurd (congrArg Link.mode hsame.link) hne
  | sr _ _ he => exact absurd (execSr_mode he) hne
  | tc ht hl =>
    obtain ⟨-, htxc, hempty⟩ := tcq_iff.1 hl
    exact ⟨linkIdle_iff.2 hempty, .inl ⟨rfl, ht, htxc⟩⟩
  | complete => exact absurd (completionStep_mode s) hne
  | abandon => exact absurd (abandonStep_mode s) hne
  | action => exact absurd rfl hq

/-- Settles O45: of the moves of a step only INIT and TC's handler write the mode, and each is taken on an idle link. -/
theorem theModeChangesOnlyOnAnIdleLink : Obligations.TheModeChangesOnlyOnAnIdleLink := by
  unfold Obligations.TheModeChangesOnlyOnAnIdleLink
  intro s t q rest hq hslot hstep hne
  have hmove : SlotStep q (setSchedule rest s) t := by
    simpa only [nextSlot_scheduled hq] using slotStep_of_step hstep
  obtain ⟨hi, hwho⟩ := slotStep_mode hslot hmove hne
  obtain ⟨hshift, hhold⟩ := linkIdle_iff.1 hi
  exact ⟨hshift, hhold, hwho⟩

/-! ### The awaited request (R152) -/

theorem step_complete {s : State} {q : List Slot} (hq : s.schedule = .complete :: q) :
    step s = .next (completionStep (setSchedule q s)) :=
  step_scheduled hq

/-- A completion empties the holding register, and with it already empty the shift register too (R177). -/
theorem completionStep_drains {s : State} (h : BlockInv s) :
    ∃ l, completionStep s = setLink l s ∧ l.hold = none ∧ (s.link.hold = none → l.shift = none) := by
  obtain ⟨-, -, hf, -⟩ := storeInv_of_blockInv h
  cases hs : s.link.shift with
  | none =>
    have hhold : s.link.hold = none := by
      by_contra hne
      exact shift_of_hold h hne hs
    exact ⟨s.link, completionStep_idle hs, hhold, fun _ => hs⟩
  | some b =>
    cases hh : s.link.hold with
    | none => exact ⟨_, completionStep_last hf hs hh, hh, fun _ => rfl⟩
    | some x => exact ⟨_, completionStep_held hf hs hh, rfl, by simp⟩

/-- In a running cycle, SR is requested once the holding register is empty, TC once the link is idle. -/
theorem awaited_of_linkIdle {s : State} (h : BlockInv s) (hp : s.phase ≠ .idle) (hi : linkIdle s.link = true) :
    (s.trigger = .sr ∧ srq s.link = true) ∨ (s.trigger = .tc ∧ tcq s.link = true) := by
  obtain ⟨hshift, hhold⟩ := linkIdle_iff.1 hi
  have hen := linkEnabled_of_active h hp
  obtain ⟨⟨hidle, -⟩, ⟨-, -, -, -, hcoming, -, -⟩, -⟩ := h
  cases ht : s.trigger with
  | none => exact absurd (hidle.2 ht) hp
  | sr => exact .inl ⟨rfl, srq_iff.2 ⟨hen, hhold⟩⟩
  | tc =>
    have htxc : s.link.txc = true := (hcoming hp ht).resolve_left (absurd hshift)
    exact .inr ⟨rfl, tcq_iff.2 ⟨hen, htxc, hshift, hhold⟩⟩

/-- Settles O53: the first completion empties the holding register, the second the shift register, and the invariant they
keep has the completion pending where TC is awaited. -/
theorem theAwaitedNotificationArrives : Obligations.TheAwaitedNotificationArrives := by
  unfold Obligations.TheAwaitedNotificationArrives
  intro s q h hp hq
  obtain ⟨l1, hc1, hhold1, -⟩ := completionStep_drains (s := setSchedule (.complete :: q) s) h
  have hstep1 := hc1 ▸ step_complete hq
  have h1 := everyStepKeepsTheInvariant _ _ h hstep1
  obtain ⟨l2, hc2, hhold2, hshift2⟩ := completionStep_drains
    (s := setSchedule q (setLink l1 (setSchedule (.complete :: q) s))) h1
  have hstep2 := hc2 ▸ step_complete (s := setLink l1 (setSchedule (.complete :: q) s)) rfl
  have h2 := everyStepKeepsTheInvariant _ _ h1 hstep2
  exact ⟨_, (runSteps_next hstep1).trans (runSteps_next hstep2), rfl, rfl, rfl,
    awaited_of_linkIdle h2 hp (linkIdle_iff.2 ⟨hshift2 hhold1, hhold2⟩)⟩

/-! ### One whole cycle (R150) -/

theorem runSteps_add {j k : Nat} {s t : State} (h : runSteps j s = .next t) :
    runSteps (j + k) s = runSteps k t := by
  induction j generalizing s with
  | zero =>
    cases h
    rw [Nat.zero_add]
  | succ j ih =>
    cases hstep : step s with
    | next u =>
      rw [runSteps_next hstep] at h
      rw [Nat.succ_add, runSteps_next hstep, ih h]
    | fault r => simp [runSteps, hstep] at h
    | refused r => simp [runSteps, hstep] at h

/-- With nothing held, and a byte on its way or already out, a completion slot leaves the link idle, its completion
pending and the whole wire on the trace. -/
theorem step_complete_pending {s : State} {q : List Slot} (hf : s.faults = []) (hh : s.link.hold = none)
    (hcoming : s.link.shift ≠ none ∨ s.link.txc = true) (hq : s.schedule = .complete :: q) :
    step s = .next { s with
      schedule := q, link := { s.link with shift := none, txc := true, trace := wire s } } := by
  rw [step_complete hq]
  cases hs : s.link.shift with
  | some b =>
    rw [completionStep_last (s := setSchedule q s) hf hs hh]
    simp [setLink, setSchedule, wire, inFlight, hs, hh]
  | none =>
    have htxc : s.link.txc = true := hcoming.resolve_left (absurd hs)
    rw [completionStep_idle (s := setSchedule q s) hs, wire_of_linkIdle (linkIdle_iff.2 ⟨hs, hh⟩), ← hs, ← htxc]
    rfl

/-- What a cycle that starts from `s` has put on the wire after `k` channels. -/
def cycleWire (s : State) (k : Nat) : List TraceEntry :=
  wire s ++ TraceEntry.sent (some .dat) 0x00#8 ::
    (List.range k).map fun j => TraceEntry.sent (some .dat) (byteAt (j + 1) s)

theorem cycleWire_succ (s : State) (k : Nat) :
    cycleWire s (k + 1) = cycleWire s k ++ [.sent (some .dat) (byteAt (k + 1) s)] := by
  simp [cycleWire, List.range_succ]

/-- The slots of a cycle once `k` of its channels are out, before those of `q`. -/
def slotsFrom (s : State) (q : List Slot) (k : Nat) : List Slot :=
  (List.replicate (s.activeCount.toNat - k) [Slot.core, Slot.complete]).flatten ++ .core :: q

theorem slotsFrom_succ {s : State} {q : List Slot} {k : Nat} (h : k < s.activeCount.toNat) :
    slotsFrom s q k = .core :: .complete :: slotsFrom s q (k + 1) := by
  have hk : s.activeCount.toNat - k = s.activeCount.toNat - (k + 1) + 1 := by omega
  simp [slotsFrom, hk, List.replicate_succ]

/-- Where the cycle that starts from `s` stands when `k` channels are out and the next is not sent yet. -/
def cyclePoint (s : State) (q : List Slot) (k : Nat) : State :=
  { s with
    phase := .data
    index := BitVec.ofNat 10 (k + 1)
    snap := s.activeCount
    trigger := if k < s.activeCount.toNat then .sr else .tc
    schedule := slotsFrom s q k
    link := { s.link with
      mode := some .dat, hold := none, shift := none, txc := decide (0 < k), trace := cycleWire s k } }

/-- A core step that leaves a byte shifting, and the completion of that byte. -/
theorem runSteps_send_complete {s t : State} {q : List Slot} (hcore : step s = .next t) (hf : t.faults = [])
    (hs : t.link.shift ≠ none) (hh : t.link.hold = none) (hq : t.schedule = .complete :: q) :
    runSteps 2 s = .next { t with
      schedule := q, link := { t.link with shift := none, txc := true, trace := wire t } } := by
  rw [runSteps_next hcore, runSteps_next (step_complete_pending hf hh (.inl hs) hq), runSteps_zero]

/-- The cycle that starts from `s` when the break byte is out. -/
def breakOut (s : State) (q : List Slot) : State :=
  { s with
    schedule := .core :: .complete :: .core :: slotsFrom s q 0
    link := { s.link with hold := none, shift := none, txc := true, trace := wire s } }

/-- The cycle that starts from `s` when the start code is out. -/
def startCodeOut (s : State) (q : List Slot) : State :=
  { s with
    phase := .startCode
    snap := s.activeCount
    schedule := .core :: slotsFrom s q 0
    link := { s.link with mode := some .dat, hold := none, shift := none, txc := true, trace := cycleWire s 0 } }

section
variable {s : State} {q : List Slot} {k : Nat}

theorem step_breakOut (h : BlockInv s) (hp : s.phase = .brk)
    (hq : s.schedule = .complete :: .core :: .complete :: .core :: slotsFrom s q 0) :
    step s = .next (breakOut s q) := by
  obtain ⟨-, -, hf, -⟩ := storeInv_of_blockInv h
  obtain ⟨⟨-, hawait, -⟩, ⟨-, -, -, hhold, hcoming, -, -⟩, -⟩ := h
  have hh : s.link.hold = none := hhold (.inl hp)
  rw [step_complete_pending hf hh (hcoming (by simp [hp]) (hawait (.inl hp))) hq]
  simp [breakOut, hh]

/-- The snapshot and the start code (R145), with that byte completed. -/
theorem runSteps_breakOut (hf : s.faults = []) (hp : s.phase = .brk) (ht : s.trigger = .tc) (hen : s.link.en = true) :
    runSteps 2 (breakOut s q) = .next (startCodeOut s q) := by
  obtain ⟨-, htc, -⟩ := coreStepRunsTheSelectedHandler (breakOut s q) _ rfl
  have hcore := (htc ht hen rfl rfl rfl).trans (tcInBreakSendsTheStartCode _ hp hen rfl rfl)
  exact runSteps_send_complete hcore hf (by simp) rfl rfl

/-- The turn to the data (R146). -/
theorem step_startCodeOut (ht : s.trigger = .tc) (hen : s.link.en = true) (hcount : 1 ≤ s.activeCount.toNat) :
    step (startCodeOut s q) = .next (cyclePoint s q 0) := by
  obtain ⟨-, htc, -⟩ := coreStepRunsTheSelectedHandler (startCodeOut s q) _ rfl
  have htrigger : (cyclePoint s q 0).trigger = .sr := if_pos hcount
  rw [htc ht hen rfl rfl rfl, tcInStartCodeBeginsTheData _ rfl, ← htrigger]
  rfl

/-- SR on an idle link (R142), as a scheduled step. -/
theorem step_sr (hq : s.schedule = .core :: q) (hp : s.phase = .data) (ht : s.trigger = .sr)
    (hindex : 1 ≤ s.index.toNat ∧ s.index.toNat ≤ s.snap.toNat) (hsnap : s.snap.toNat ≤ 512)
    (hen : s.link.en = true) (hs : s.link.shift = none) (hh : s.link.hold = none) :
    step s = .next { s with
      schedule := q
      index := s.index + 1
      trigger := if s.index.toNat = s.snap.toNat then .tc else .sr
      link := { s.link with shift := some (byteAt s.index.toNat s), txc := false } } := by
  obtain ⟨hsr, -⟩ := coreStepRunsTheSelectedHandler s q hq
  obtain ⟨i, hi, hexec⟩ := srSendsTheNextChannel { s with schedule := q } hp hindex.1 hindex.2 hsnap hen hh
  obtain rfl : i = s.index + 1 :=
    BitVec.eq_of_toNat_eq (hi.trans (succ_count (hindex.2.trans hsnap)).symm)
  rw [hsr ht hen hh, hexec]
  simp [hs, hh, ht, byteAt]

/-- The index of a cycle's point fits its register. -/
theorem cyclePoint_index (hk : k ≤ 512) : (cyclePoint s q k).index.toNat = k + 1 := by
  rw [cyclePoint, BitVec.toNat_ofNat]
  omega

/-- One channel (R142), with its byte completed. -/
theorem runSteps_cyclePoint (hf : s.faults = []) (hen : s.link.en = true) (hcap : s.activeCount.toNat ≤ 512)
    (hk : k < s.activeCount.toNat) :
    runSteps 2 (cyclePoint s q k) = .next (cyclePoint s q (k + 1)) := by
  have hindex : (cyclePoint s q k).index.toNat = k + 1 := cyclePoint_index (by omega)
  have hsucc : (cyclePoint s q k).index + 1 = (cyclePoint s q (k + 1)).index := (BitVec.ofNat_add (k + 1) 1).symm
  have hcore := step_sr (s := cyclePoint s q k) (slotsFrom_succ hk) rfl (if_pos hk)
    ⟨by omega, by rw [hindex]; exact hk⟩ hcap hen rfl rfl
  have hbyte : byteAt (k + 1) (cyclePoint s q k) = byteAt (k + 1) s := byteAt_of_values_eq rfl _
  have htrigger : (if k + 1 = (cyclePoint s q k).snap.toNat then Trigger.tc else .sr) =
      (cyclePoint s q (k + 1)).trigger := by
    show _ = if k + 1 < s.activeCount.toNat then Trigger.sr else .tc
    split
    next hlast => exact (if_neg (not_lt.2 hlast.ge)).symm
    next hmore => exact (if_pos (lt_of_le_of_ne hk hmore)).symm
  rw [hindex, hsucc, hbyte, htrigger] at hcore
  rw [runSteps_send_complete hcore hf (by simp) rfl rfl]
  simp [cyclePoint, wire, inFlight, cycleWire_succ]

/-- The TC that closes the cycle (R147). -/
theorem step_cyclePoint_last (hen : s.link.en = true) (hcount : 1 ≤ s.activeCount.toNat)
    (hcap : s.activeCount.toNat ≤ 512) :
    step (cyclePoint s q s.activeCount.toNat) = .next { cyclePoint s q s.activeCount.toNat with
      phase := .brk
      schedule := q
      link := { s.link with
        mode := some .brk, hold := none, shift := some 0x00#8, txc := false
        trace := cycleWire s s.activeCount.toNat } } := by
  have hslots : slotsFrom s q s.activeCount.toNat = .core :: q := by simp [slotsFrom]
  obtain ⟨-, htc, -⟩ := coreStepRunsTheSelectedHandler (cyclePoint s q s.activeCount.toNat) _ hslots
  exact (htc (if_neg (lt_irrefl _)) hen (decide_eq_true hcount) rfl rfl).trans
    (tcAfterTheLastByteStartsTheNextBreak _ rfl (cyclePoint_index (s := s) (q := q) hcap) hen rfl rfl)

/-- From `Break` to `Data(k + 1)`, by induction on the channels that are out. -/
theorem runSteps_to_cyclePoint (h : BlockInv s) (hp : s.phase = .brk)
    (hq : s.schedule = .complete :: .core :: .complete :: .core :: slotsFrom s q 0) (hk : k ≤ s.activeCount.toNat) :
    runSteps (4 + 2 * k) s = .next (cyclePoint s q k) := by
  obtain ⟨⟨hcount, hcap⟩, -, hf, -⟩ := storeInv_of_blockInv h
  have hen : s.link.en = true := linkEnabled_of_active h (by simp [hp])
  induction k with
  | zero =>
    have ht : s.trigger = .tc := by
      obtain ⟨⟨-, hawait, -⟩, -⟩ := h
      exact hawait (.inl hp)
    calc runSteps 4 s
      _ = runSteps 3 (breakOut s q) := runSteps_next (step_breakOut h hp hq)
      _ = runSteps 1 (startCodeOut s q) := runSteps_add (k := 1) (runSteps_breakOut hf hp ht hen)
      _ = .next (cyclePoint s q 0) := runSteps_next (step_startCodeOut ht hen hcount)
  | succ k ih =>
    calc runSteps (4 + 2 * k + 2) s
      _ = runSteps 2 (cyclePoint s q k) := runSteps_add (ih (by omega))
      _ = .next (cyclePoint s q (k + 1)) := runSteps_cyclePoint hf hen hcap hk
end

/-- Settles O41: the cycle's opening, its channels one by one, and the TC that closes it. -/
theorem oneCycleSendsEveryActiveChannelInOrder : Obligations.OneCycleSendsEveryActiveChannelInOrder := by
  unfold Obligations.OneCycleSendsEveryActiveChannelInOrder
  intro s q h hp hq
  obtain ⟨⟨hcount, hcap⟩, -⟩ := storeInv_of_blockInv h
  have hen : s.link.en = true := linkEnabled_of_active h (by simp [hp])
  have hslots : s.schedule = .complete :: .core :: .complete :: .core :: slotsFrom s q 0 := by
    simp [hq, slotsFrom]
  have hrun := runSteps_to_cyclePoint h hp hslots le_rfl
  have hlast := step_cyclePoint_last (q := q) hen hcount hcap
  rw [Nat.add_right_comm 4 1, runSteps_add hrun, runSteps_next hlast, runSteps_zero]
  exact ⟨_, rfl, rfl, rfl, rfl, if_neg (lt_irrefl _), rfl, rfl, rfl⟩

end Sys2Proof.Proofs

/-! # Fair runs (spec/60_exceptions.md R212, spec/41_event_handlers.md R152)

In a weakly fair run no measure can forever stay the same until a helpful agent moves, fall when one does, and always have
one that is enabled. While a cycle runs, the helpful agent is the core if a notification can be delivered, else the link, and
the measure counts the core steps and the completions the cycle still needs. -/

namespace Sys2Proof.Proofs

open Sys2Proof.Machine Sys2Proof.Safety

/-! ### The moves of a run -/

section
variable {states : Nat → State} {due : Nat → Slot} {issued : Nat → List CommandWord}

theorem offer_keeps_blockInv {s : State} (h : BlockInv s) (q : Slot) (ws : List CommandWord) : BlockInv (offer q ws s) :=
  setPort_keeps_blockInv (s := setSchedule [q] s) _ h

theorem run_blockInv (hrun : IsRun states due issued) (h0 : BlockInv (states 0)) (n : Nat) : BlockInv (states n) := by
  induction n with
  | zero => exact h0
  | succ n ih => exact everyStepKeepsTheInvariant _ _ (offer_keeps_blockInv ih _ _) (hrun n)

/-- The state in which the `n`-th agent of a run moves: the new words on the port, the slot taken. -/
def offered (states : Nat → State) (issued : Nat → List CommandWord) (n : Nat) : State :=
  setPort ((states n).port ++ issued n) (setSchedule [] (states n))

theorem offered_blockInv (hrun : IsRun states due issued) (h0 : BlockInv (states 0)) (n : Nat) :
    BlockInv (offered states issued n) :=
  setPort_keeps_blockInv (s := setSchedule [] (states n)) _ (run_blockInv hrun h0 n)

theorem perform_of_run (hrun : IsRun states due issued) (n : Nat) :
    perform (slotFetch (due n) (offered states issued n)) = .next (states (n + 1)) :=
  hrun n

theorem move_of_run (hrun : IsRun states due issued) (h0 : BlockInv (states 0)) (n : Nat) :
    Move (due n) (offered states issued n) (states (n + 1)) :=
  move_of_step (offer_keeps_blockInv (run_blockInv hrun h0 n) _ _) (hrun n)

/-! ### Descent -/

/-- No run keeps a helpful agent enabled for ever and lowers the measure whenever that agent moves: until it moves it stays
the helpful one, so fairness lets it move. -/
theorem no_fair_descent (hfair : WeaklyFair states due) (measure : State → Nat) (helpful : State → Slot) {n : Nat}
    (henabled : ∀ m, n ≤ m → enabled (helpful (states m)) (states m) = true)
    (hstep : ∀ m, n ≤ m → measure (states (m + 1)) < measure (states m) ∨
      (measure (states (m + 1)) = measure (states m) ∧ helpful (states (m + 1)) = helpful (states m) ∧
        due m ≠ helpful (states m))) : False := by
  induction hk : measure (states n) using Nat.strong_induction_on generalizing n with
  | _ k ih =>
    subst hk
    by_cases hfall : ∃ m, n ≤ m ∧ measure (states (m + 1)) < measure (states n)
    · obtain ⟨m, hm, hlt⟩ := hfall
      exact ih _ hlt (fun j hj => henabled j (by omega)) (fun j hj => hstep j (by omega)) rfl
    · have hstay : ∀ m, n ≤ m →
          measure (states m) = measure (states n) ∧ helpful (states m) = helpful (states n) := by
        intro m hm
        induction m, hm using Nat.le_induction with
        | base => exact ⟨rfl, rfl⟩
        | succ m hm ihm =>
          obtain hlt | ⟨hmeasure, hsame, -⟩ := hstep m hm
          · exact absurd ⟨m, hm, ihm.1 ▸ hlt⟩ hfall
          · exact ⟨hmeasure.trans ihm.1, hsame.trans ihm.2⟩
      obtain ⟨m, hm, hdue⟩ := hfair (helpful (states n)) n fun m hm => (hstay m hm).2 ▸ henabled m hm
      obtain hlt | ⟨-, -, hne⟩ := hstep m hm
      · exact hfall ⟨m, hm, (hstay m hm).1 ▸ hlt⟩
      · exact hne (hdue.trans (hstay m hm).2.symm)

/-! ### The measure of a cycle -/

/-- The core steps a cycle still needs before its next break, or more. -/
def stepsToGo (s : State) : Nat :=
  match s.phase with
  | .idle => 0
  | .brk => Config.capacity + 2
  | .startCode => Config.capacity + 1
  | .data => s.snap.toNat + 1 - s.index.toNat

/-- The bytes the link holds. -/
def bytesHeld (l : Link) : Nat := (l.shift.toList ++ l.hold.toList).length

/-- Each core step still needed counts for itself and for the completion of the byte it may send. -/
def cycleMeasure (s : State) : Nat := 2 * stepsToGo s + bytesHeld s.link

/-- The agent whose move brings the cycle on. -/
def helpfulAgent (s : State) : Slot := if enabled .core s then .core else .complete

theorem enabled_helpfulAgent {s : State} (h : BlockInv s) (hp : s.phase ≠ .idle) :
    enabled (helpfulAgent s) s = true := by
  unfold helpfulAgent
  split
  next hon => exact hon
  next hoff =>
    by_contra hno
    have hs : s.link.shift = none := by simpa [enabled] using hno
    have hh : s.link.hold = none := by
      by_contra hne
      exact shift_of_hold h hne hs
    exact hoff (enabled_core.2 (awaited_of_linkIdle h hp (linkIdle_iff.2 ⟨hs, hh⟩)))

theorem sameCore_measure {s t : State} (h : SameCore s t) :
    cycleMeasure t = cycleMeasure s ∧ helpfulAgent t = helpfulAgent s := by
  constructor
  · rw [cycleMeasure, cycleMeasure, stepsToGo, stepsToGo, h.phase, h.index, h.snap, h.link]
  · have hword : deliveryWord t = deliveryWord s := by rw [deliveryWord, deliveryWord, h.trigger, h.link]
    rw [helpfulAgent, helpfulAgent, enabled, enabled, hword]

theorem bytesHeld_acceptByte {b : Byte} {l : Link} (hh : l.hold = none) :
    bytesHeld (acceptByte b l) = bytesHeld l + 1 := by
  cases hs : l.shift with
  | none => simp [bytesHeld, acceptByte, hs, hh]
  | some x => simp [bytesHeld, acceptByte, hs, hh]

/-- Every case rule but the one that starts the next break brings the measure down. -/
theorem handled_lowers_measure {s t : State} (hmove : Handled s t) (hno : ¬ (s.phase = .data ∧ t.phase = .brk)) :
    cycleMeasure t < cycleMeasure s := by
  cases hmove with
  | channel hp hindex hsnap hhold =>
    have hsucc := succ_count (hindex.2.trans hsnap)
    simp only [cycleMeasure, stepsToGo, hp, bytesHeld_acceptByte hhold, hsucc]
    omega
  | startCode hp hi =>
    obtain ⟨-, hhold⟩ := linkIdle_iff.1 hi
    have hone : bytesHeld { s.link with mode := some .dat, shift := some Config.startCode, txc := false } = 1 := by
      simp [bytesHeld, hhold]
    simp only [cycleMeasure, stepsToGo, hp, hone]
    omega
  | beginData hp hsnap =>
    have hfirst : (1#10).toNat = 1 := rfl
    simp only [cycleMeasure, stepsToGo, hp, hfirst, bytesHeld]
    omega
  | nextBreak hp => exact absurd ⟨hp, rfl⟩ hno

theorem completion_lowers_measure {s : State} (hf : s.faults = []) (hs : s.link.shift ≠ none) :
    cycleMeasure (completionStep s) < cycleMeasure s := by
  obtain ⟨b, hb⟩ := Option.ne_none_iff_exists'.1 hs
  cases hh : s.link.hold with
  | none => simp [completionStep_last hf hb hh, cycleMeasure, stepsToGo, bytesHeld, hb, hh]
  | some x => simp [completionStep_held hf hb hh, cycleMeasure, stepsToGo, bytesHeld, hb, hh]

theorem helpfulAgent_ne_host (s : State) : Slot.host ≠ helpfulAgent s := by
  unfold helpfulAgent
  split <;> simp

/-- While the cycle neither stops nor starts its next break, a move lowers the measure, or it is quiet and not the helpful
agent's. -/
theorem cycle_progress {q : Slot} {s t : State} (h : BlockInv s) (hp : s.phase ≠ .idle)
    (hstep : perform (slotFetch q s) = .next t) (hp' : t.phase ≠ .idle) (hno : ¬ (s.phase = .data ∧ t.phase = .brk)) :
    cycleMeasure t < cycleMeasure s ∨ (SameCore s t ∧ q ≠ helpfulAgent s) := by
  obtain ⟨-, -, hf, haction⟩ := storeInv_of_blockInv h
  cases hon : enabled q s with
  | false =>
    rw [slotFetch_not_enabled hon] at hstep
    cases hstep
    refine .inr ⟨sameCore_refl s, fun hq => ?_⟩
    rw [hq, enabled_helpfulAgent h hp] at hon
    cases hon
  | true =>
    cases q with
    | host =>
      have hmove : Move .host s t := move_of_perform h hstep
      cases hmove with
      | quiet hsame => exact .inr ⟨hsame, helpfulAgent_ne_host s⟩
      | start _ _ hidle => exact absurd hidle hp
      | stop => exact absurd rfl hp'
    | core =>
      obtain ⟨u, hu, hmove⟩ := core_handled h hon
      cases hu.symm.trans hstep
      exact .inl (handled_lowers_measure hmove hno)
    | complete =>
      cases hstep
      exact .inl (completion_lowers_measure hf (Option.isSome_iff_ne_none.1 hon))
    | abandon => simp [enabled, linkEnabled_of_active h hp] at hon
    | action => simp [enabled, haction] at hon

/-- Only TERM leads to `Idle`. -/
theorem move_into_idle {q : Slot} {s t : State} (hmove : Move q s t) (hp : s.phase ≠ .idle) (hp' : t.phase = .idle) :
    q = .host ∧ s.port.head? = some 0x70000000#32 := by
  cases hmove with
  | quiet hsame => exact absurd (hsame.phase.symm.trans hp') hp
  | start _ _ hidle => exact absurd hidle hp
  | stop hport => exact ⟨rfl, by rw [hport]; rfl⟩
  | handled hmove =>
    cases hmove with
    | channel => exact absurd hp' hp
    | startCode => cases hp'
    | beginData => cases hp'
    | nextBreak => cases hp'
  | complete =>
    obtain ⟨l, n, hc⟩ := completionStep_footprint s
    rw [hc] at hp'
    exact absurd hp' hp
  | abandon hidle => exact absurd hidle hp

/-- A running cycle of a fair run comes to its next break, or is stopped. -/
theorem fairRun_reaches_break (hfair : FairRun states due issued) (h0 : BlockInv (states 0)) (n : Nat) :
    ∃ m, n ≤ m ∧ ((states m).phase = .idle ∨ ((states m).phase = .data ∧ (states (m + 1)).phase = .brk)) := by
  obtain ⟨hrun, hweak⟩ := hfair
  by_contra hnever
  have hactive : ∀ m, n ≤ m → (states m).phase ≠ .idle := fun m hm hidle => hnever ⟨m, hm, .inl hidle⟩
  refine no_fair_descent hweak cycleMeasure helpfulAgent (n := n)
    (fun m hm => enabled_helpfulAgent (run_blockInv hrun h0 m) (hactive m hm)) fun m hm => ?_
  have hprogress := cycle_progress (offered_blockInv hrun h0 m) (hactive m hm) (perform_of_run hrun m)
    (hactive (m + 1) (by omega)) fun hbreak => hnever ⟨m, hm, .inr hbreak⟩
  obtain hlt | ⟨hsame, hne⟩ := hprogress
  · exact .inl hlt
  · obtain ⟨hmeasure, hhelp⟩ := sameCore_measure hsame
    exact .inr ⟨hmeasure, hhelp, hne⟩

end

/-- Settles O60: the descent of `cycleMeasure` for the first half, the moves that can reach `Idle` for the second. -/
theorem aFairRunRepeatsTheCycle : Obligations.AFairRunRepeatsTheCycle := by
  unfold Obligations.AFairRunRepeatsTheCycle
  intro states due issued hfair h0 n hp
  exact ⟨fairRun_reaches_break hfair h0 n, move_into_idle (move_of_run hfair.1 h0 n) hp⟩

end Sys2Proof.Proofs

/-! # The serial link (spec/42_link_interface.md)

Everything the block and an outside driver do to the link keeps its trace and never raises `L.txc` (`LinkKept`); only the
completion step does more, and it too keeps the trace. What every step does to the trace and to `L.txc` is read off that. -/

namespace Sys2Proof.Proofs

open Sys2Proof.Machine Sys2Proof.Safety

/-! ### The link actions (R172 to R176) -/

/-- Settles O32: the two actions are those register writes by definition. -/
theorem enableAndSelectWriteOneRegister : Obligations.EnableAndSelectWriteOneRegister := by
  unfold Obligations.EnableAndSelectWriteOneRegister
  exact fun _ _ _ => ⟨rfl, rfl⟩

/-- Settles O34, by the two branches of LinkConfigure; a recorded fault joins the set (`mem_insertFault`). -/
theorem configureSetsTheModeOrCorrupts : Obligations.ConfigureSetsTheModeOrCorrupts := by
  unfold Obligations.ConfigureSetsTheModeOrCorrupts
  intro m s
  refine ⟨fun hshift hhold => ?idle, fun hbytes => ⟨linkConfigure m s, rfl, ?busy⟩⟩
  case idle => exact congrArg Host.Outcome.next (linkConfigure_idle (linkIdle_iff.2 ⟨hshift, hhold⟩))
  case busy =>
    have hbusy : linkIdle s.link = false := by
      rw [Bool.eq_false_iff, Ne, linkIdle_iff]
      exact not_and_or.2 hbytes
    rw [linkConfigure_busy hbusy]
    exact ⟨rfl, fun c => mem_insertFault⟩

/-- Settles O35, by the three branches of LinkSend. -/
theorem sendTakesOrDiscardsTheByte : Obligations.SendTakesOrDiscardsTheByte := by
  unfold Obligations.SendTakesOrDiscardsTheByte
  intro b s
  refine ⟨fun hen hhold => ?taken, fun hen => ⟨linkSend b s, rfl, ?disabled⟩,
    fun hen hhold => ⟨linkSend b s, rfl, ?full⟩⟩
  case taken =>
    calc exec (.linkSend b) s
      _ = .next (linkSend b s) := rfl
      _ = _ := by rw [linkSend_ready hen hhold, acceptByte_of_hold_empty hhold]; rfl
  case disabled =>
    rw [linkSend_disabled hen]
    exact ⟨rfl, fun c => mem_insertFault⟩
  case full =>
    rw [linkSend_full hen hhold]
    exact ⟨rfl, fun c => mem_insertFault⟩

/-! ### The link steps (R177, R181) -/

/-- Settles O14: the completion slot takes the completion step, with a byte held or with none. -/
theorem completionStepShiftsOneByteOut : Obligations.CompletionStepShiftsOneByteOut := by
  unfold Obligations.CompletionStepShiftsOneByteOut
  intro s q hq hf
  rw [step_complete hq]
  refine ⟨fun b h hshift hhold => ?held, fun b hshift hhold => ?last⟩
  case held => exact congrArg Host.Outcome.next (completionStep_held (s := setSchedule q s) hf hshift hhold)
  case last => exact congrArg Host.Outcome.next (completionStep_last (s := setSchedule q s) hf hshift hhold)

/-- Settles O15: the abandon slot takes the abandon step, enabled here. -/
theorem abandonStepEmptiesADisabledLink : Obligations.AbandonStepEmptiesADisabledLink := by
  unfold Obligations.AbandonStepEmptiesADisabledLink
  intro s q hq hf hen hshift
  rw [step_scheduled hq]
  exact congrArg Host.Outcome.next (abandonStep_disabled (s := setSchedule q s) hf hen hshift)

/-- Settles O42: a completion and an accepted send by their lemmas about the wire, an abandon by its registers. -/
theorem theLinkShowsOnlyWhatWasSent : Obligations.TheLinkShowsOnlyWhatWasSent := by
  unfold Obligations.TheLinkShowsOnlyWhatWasSent
  intro s b hf
  refine ⟨wire_completionStep hf, fun hen hhold => ?send, fun hen hshift => ?abandon⟩
  case send => exact wire_acceptByte hhold (by rw [linkSend_ready hen hhold, setLink_link])
  case abandon => simp [abandonStep_disabled hf hen hshift, wire, inFlight]

/-! ### Slots that are not enabled (spec/20_memory.md R58) -/

theorem step_not_enabled {s : State} {a : Slot} {q : List Slot} (hq : s.schedule = a :: q)
    (hoff : enabled a (setSchedule q s) = false) : step s = .next (setSchedule q s) := by
  rw [step_scheduled hq, slotFetch_not_enabled hoff, perform]

/-- Settles O16: in each case the slot's agent is not enabled. -/
theorem aSlotThatIsNotEnabledChangesNothing : Obligations.ASlotThatIsNotEnabledChangesNothing := by
  unfold Obligations.ASlotThatIsNotEnabledChangesNothing
  intro s a q hq hcase
  refine step_not_enabled hq ?_
  obtain ⟨rfl, hshift⟩ | ⟨rfl, hen | hshift⟩ | ⟨rfl, hport⟩ | ⟨rfl, hport⟩ := hcase
  · simp [enabled, hshift]
  · simp [enabled, hen]
  · simp [enabled, hshift]
  · simp [enabled, hport]
  · simp [enabled, hport]

/-- A disabled link raises neither request line (R172, R178, R179). -/
theorem requests_of_disabled {l : Link} (hen : l.en = false) : srq l = false ∧ tcq l = false := by
  simp [srq, tcq, hen]

/-- Settles O33: with both request lines low the core is not enabled, whatever the trigger. -/
theorem aDisabledLinkRequestsNothing : Obligations.ADisabledLinkRequestsNothing := by
  unfold Obligations.ADisabledLinkRequestsNothing
  intro s q hen hq
  obtain ⟨hsrq, htcq⟩ := requests_of_disabled hen
  have hoff : enabled .core (setSchedule q s) = false := by
    rw [Bool.eq_false_iff, Ne, enabled_core, setSchedule_link, hsrq, htcq]
    simp
  exact step_not_enabled hq hoff

/-! ### What the trace keeps and what leaves `L.txc` alone -/

/-- From `l` to `l'` the trace is only added to, and `L.txc` is not raised. -/
structure LinkKept (l l' : Link) : Prop where
  trace : l.trace <+: l'.trace
  txc : l'.txc = true → l.txc = true

theorem linkKept_refl (l : Link) : LinkKept l l := ⟨List.prefix_rfl, id⟩

theorem LinkKept.trans {l l' l'' : Link} (h : LinkKept l l') (h' : LinkKept l' l'') : LinkKept l l'' :=
  ⟨h.trace.trans h'.trace, h.txc ∘ h'.txc⟩

theorem linkKept_linkEnable (e : Bool) (s : State) : LinkKept s.link (linkEnable e s).link :=
  ⟨List.prefix_rfl, id⟩

theorem linkKept_linkConfigure (m : WireMode) (s : State) : LinkKept s.link (linkConfigure m s).link := by
  cases h : linkIdle s.link with
  | true =>
    rw [linkConfigure_idle h]
    exact ⟨List.prefix_rfl, id⟩
  | false =>
    rw [linkConfigure_busy h]
    exact ⟨List.prefix_append _ _, id⟩

theorem acceptByte_trace (b : Byte) (l : Link) : (acceptByte b l).trace = l.trace := by
  unfold acceptByte; split <;> rfl

@[simp] theorem acceptByte_txc (b : Byte) (l : Link) : (acceptByte b l).txc = false := by
  unfold acceptByte; split <;> rfl

theorem linkKept_linkSend (b : Byte) (s : State) : LinkKept s.link (linkSend b s).link := by
  obtain ⟨-, -, h⟩ | ⟨f, h⟩ := linkSend_cases b s
  · rw [h, setLink_link]
    exact ⟨by rw [acceptByte_trace], by simp⟩
  · rw [h, raiseFault_link]
    exact linkKept_refl _

theorem linkKept_enterHandler (n : Notification) (s : State) : LinkKept s.link (enterHandler n s).link := by
  cases n with
  | sr => exact linkKept_refl _
  | tc => exact ⟨List.prefix_rfl, fun h => by simp [enterHandler_tc] at h⟩

/-! ### The instructions keep the link -/

/-- A mode change and then a send, whatever else is written in between. -/
theorem linkKept_configure_send {m : WireMode} {b : Byte} {s u : State} (hu : u.link = (linkConfigure m s).link) :
    LinkKept s.link (linkSend b u).link := by
  have hconfigure := linkKept_linkConfigure m s
  rw [← hu] at hconfigure
  exact hconfigure.trans (linkKept_linkSend b u)

theorem linkKept_startCycle (s : State) : LinkKept s.link (startCycle s).link := by
  simp only [startCycle, setPhase_link]
  exact (linkKept_linkEnable true (setActiveCount (BitVec.ofNat 10 Config.defaultCount) (zeroFill s))).trans
    (linkKept_configure_send rfl)

theorem linkKept_sendStartCode (s : State) : LinkKept s.link (sendStartCode s).link := by
  rw [sendStartCode, setPhase_link]
  exact linkKept_configure_send rfl

theorem linkKept_sendBreak (s : State) : LinkKept s.link (sendBreak s).link := by
  rw [sendBreak, setPhase_link]
  exact linkKept_configure_send rfl

theorem linkKept_execInit {s t : State} (h : execInit s = .next t) : LinkKept s.link t.link := by
  unfold execInit at h
  split at h
  · cases h; exact linkKept_refl _
  · split at h
    · cases h; exact linkKept_refl _
    · cases h; exact linkKept_startCycle s

theorem linkKept_execTerm {s t : State} (h : execTerm s = .next t) : LinkKept s.link t.link := by
  unfold execTerm at h
  split at h
  · cases h; exact linkKept_refl _
  · cases h; exact linkKept_linkEnable false _

theorem linkKept_execSr {s t : State} (h : execSr s = .next t) : LinkKept s.link t.link := by
  cases hd : sending s with
  | false =>
    rw [execSr_elsewhere hd] at h
    cases h; exact linkKept_refl _
  | true =>
    rw [execSr_sending hd] at h
    obtain ⟨b, -, h⟩ := orFault_next h
    rw [leaveHandler_eq, advanceCursor_eq] at h
    cases h; exact linkKept_linkSend b s

theorem linkKept_execTc {s t : State} (h : execTc s = .next t) : LinkKept s.link t.link := by
  cases hp : s.phase with
  | idle =>
    rw [execTc_idle hp] at h
    cases h; exact linkKept_refl _
  | brk =>
    rw [execTc_brk hp] at h
    cases h; exact linkKept_sendStartCode s
  | startCode =>
    rw [execTc_startCode hp] at h
    cases h; exact linkKept_refl _
  | data =>
    cases hd : draining s with
    | true =>
      rw [execTc_draining hd] at h
      cases h; exact linkKept_sendBreak s
    | false =>
      rw [execTc_data_not_draining hp hd] at h
      cases h; exact linkKept_refl _

/-- No instruction takes an entry off the trace or raises `L.txc`: those that write the link at all
(`eachRegisterHasItsWriters`) do so by link actions. -/
theorem linkKept_exec {i : Instr} {s t : State} (h : exec i s = .next t) : LinkKept s.link t.link := by
  obtain ⟨-, -, -, -, -, -, -, hwriters, -⟩ := eachRegisterHasItsWriters i s t h
  by_cases hsame : t.link = s.link
  · rw [hsame]; exact linkKept_refl _
  · obtain rfl | rfl | rfl | rfl | ⟨e, rfl⟩ | ⟨m, rfl⟩ | ⟨b, rfl⟩ := hwriters hsame
    · exact linkKept_execInit h
    · exact linkKept_execTerm h
    · exact linkKept_execSr h
    · exact linkKept_execTc h
    · cases h; exact linkKept_linkEnable e s
    · cases h; exact linkKept_linkConfigure m s
    · cases h; exact linkKept_linkSend b s

/-! ### The link steps, a fault recorded or not -/

theorem showOnWire_link (e : TraceEntry) (s : State) : ∃ e', (showOnWire e s).link = traceAppend e' s.link := by
  unfold showOnWire
  split
  · exact ⟨e, rfl⟩
  · exact ⟨Config.freeEntry s.freeCount, rfl⟩

theorem completionStep_link {s : State} (hs : s.link.shift ≠ none) :
    ∃ e, (completionStep s).link = shiftOut (traceAppend e s.link) := by
  obtain ⟨b, hb⟩ := Option.ne_none_iff_exists'.1 hs
  obtain ⟨e, he⟩ := showOnWire_link (.sent s.link.mode b) s
  exact ⟨e, by simp [completionStep, hb, he]⟩

theorem linkKept_abandonStep (s : State) : LinkKept s.link (abandonStep s).link := by
  by_cases hd : s.link.en = true ∨ s.link.shift = none
  · rw [abandonStep_not_enabled hd]
    exact linkKept_refl _
  · obtain ⟨hen, hs⟩ := not_or.1 hd
    obtain ⟨b, hb⟩ := Option.ne_none_iff_exists'.1 hs
    obtain ⟨e, he⟩ := showOnWire_link .cut s
    have hlink : (abandonStep s).link = dropBytes (traceAppend e s.link) := by simp [abandonStep, hen, hb, he]
    rw [hlink]
    exact ⟨List.prefix_append _ _, id⟩

theorem shiftOut_trace (l : Link) : (shiftOut l).trace = l.trace := by
  unfold shiftOut
  split
  · rfl
  · rfl

theorem completionStep_trace (s : State) : s.link.trace <+: (completionStep s).link.trace := by
  by_cases hs : s.link.shift = none
  · rw [completionStep_idle hs]
  · obtain ⟨e, he⟩ := completionStep_link hs
    rw [he, shiftOut_trace]
    exact List.prefix_append _ _

/-- The completion raises `L.txc` only by leaving the link idle (R177). -/
theorem completionStep_raises_txc {s : State} (htxc : s.link.txc = false)
    (hraised : (completionStep s).link.txc = true) :
    s.link.shift ≠ none ∧ s.link.hold = none ∧
      (completionStep s).link.shift = none ∧ (completionStep s).link.hold = none := by
  by_cases hs : s.link.shift = none
  · rw [completionStep_idle hs, htxc] at hraised
    cases hraised
  · obtain ⟨e, he⟩ := completionStep_link hs
    rw [he] at hraised ⊢
    cases hh : s.link.hold with
    | some x => simp [shiftOut, traceAppend, hh, htxc] at hraised
    | none => simp [shiftOut, traceAppend, hh, hs]

/-! ### Every step -/

/-- Of the moves of a step only the completion step may do more than keep the link. -/
theorem linkKept_of_slotStep {q : Slot} {u t : State} (h : SlotStep q u t) :
    LinkKept u.link t.link ∨ (q = .complete ∧ t = completionStep u) := by
  cases h with
  | idle => exact .inl (linkKept_refl _)
  | refuse => exact .inl (linkKept_refl _)
  | command _ _ _ he => exact .inl (by simpa only [setPort_link] using linkKept_exec he)
  | sr _ _ he => exact .inl (linkKept_execSr he)
  | tc _ _ he => exact .inl ((linkKept_enterHandler .tc u).trans (linkKept_execTc he))
  | complete => exact .inr ⟨rfl, rfl⟩
  | abandon => exact .inl (linkKept_abandonStep u)
  | action _ _ he => exact .inl (by simpa only [setActionPort_link] using linkKept_exec he)

/-- Settles O43: every move that keeps the link keeps its trace, and so does the completion step. -/
theorem theTraceOnlyGrows : Obligations.TheTraceOnlyGrows := by
  unfold Obligations.TheTraceOnlyGrows
  intro s t hstep
  have hgrows : (nextSlot s).2.link.trace <+: t.link.trace := by
    obtain hkept | ⟨-, rfl⟩ := linkKept_of_slotStep (slotStep_of_step hstep)
    · exact hkept.trace
    · exact completionStep_trace _
  rw [(nextSlot_core_and_link s).2] at hgrows
  obtain ⟨more, hmore⟩ := hgrows
  exact ⟨more, hmore.symm⟩

/-- Settles O56: a move that keeps the link does not raise `L.txc`, which leaves the completion step. -/
theorem onlyTheLastCompletionRaisesTxc : Obligations.OnlyTheLastCompletionRaisesTxc := by
  unfold Obligations.OnlyTheLastCompletionRaisesTxc
  intro s t hstep htxc hraised
  have hlink := (nextSlot_core_and_link s).2
  rw [← hlink] at htxc ⊢
  obtain hkept | ⟨hq, rfl⟩ := linkKept_of_slotStep (slotStep_of_step hstep)
  · rw [hkept.txc hraised] at htxc
    cases htxc
  · exact ⟨hq, completionStep_raises_txc htxc hraised⟩

/-! ### The request lines (R178, R179, R183) -/

/-- "Byte slot ready" says exactly that a send is taken: a discarded byte is recorded (R175, R178). -/
theorem srq_iff_send_records_nothing (b : Byte) (s : State) :
    srq s.link = true ↔ (linkSend b s).faultRecords = s.faultRecords := by
  constructor
  · intro h
    obtain ⟨hen, hhold⟩ := srq_iff.1 h
    rw [linkSend_ready hen hhold, setLink_faultRecords]
  · intro h
    obtain ⟨hen, hhold, -⟩ | ⟨f, hf⟩ := linkSend_cases b s
    · exact srq_iff.2 ⟨hen, hhold⟩
    · simp [hf] at h

theorem inFlight_of_tcq {s : State} (h : tcq s.link = true) : inFlight s = [] := by
  obtain ⟨-, -, hshift, hhold⟩ := tcq_iff.1 h
  simp [inFlight, hshift, hhold]

theorem tcq_eq_false_of_txc {l : Link} (h : l.txc = false) : tcq l = false := by
  simp [tcq, h]

/-- An idle link whose completion was delivered has no byte to complete, so no step raises `tcq` again (R180). -/
theorem tcq_stays_low {s t : State} (hshift : s.link.shift = none) (htxc : s.link.txc = false)
    (hstep : step s = .next t) : tcq t.link = false := by
  refine tcq_eq_false_of_txc (Bool.eq_false_iff.2 fun hraised => ?_)
  obtain ⟨-, hbyte, -⟩ := onlyTheLastCompletionRaisesTxc s t hstep htxc hraised
  exact hbyte hshift

/-- Settles O57: the lines from their definitions, and the clause about every step from O56. -/
theorem requestLinesMeetTheContract : Obligations.RequestLinesMeetTheContract := by
  unfold Obligations.RequestLinesMeetTheContract
  intro s b
  refine ⟨srq_iff_send_records_nothing b s, inFlight_of_tcq, tcq_eq_false_of_txc rfl, fun hsrq => ?sent,
    fun hshift htxc t => tcq_stays_low hshift htxc, requests_of_disabled⟩
  case sent =>
    obtain ⟨hen, hhold⟩ := srq_iff.1 hsrq
    rw [linkSend_ready hen hhold, setLink_link]
    exact tcq_eq_false_of_txc (acceptByte_txc b s.link)

end Sys2Proof.Proofs

/-! # Exceptions (spec/60_exceptions.md)

What the handlers and the host's commands leave to each other (R213), the marks no step takes back (R207, R208), the free
slot, `Idle` without notifications (R219), and what a fair run does with whatever is pending (R212). -/

namespace Sys2Proof.Proofs

open Sys2Proof.Machine Sys2Proof.Safety

/-! ### The handlers and the host (R213) -/

/-- Settles O47: the footprint of each handler names none of the host's fields. -/
theorem handlersKeepTheHostsState : Obligations.HandlersKeepTheHostsState := by
  unfold Obligations.HandlersKeepTheHostsState
  rintro i s t (rfl | rfl) he
  · obtain ⟨i, tr, l, fs, rs, rfl⟩ := execSr_footprint he
    exact ⟨rfl, rfl, rfl, rfl, rfl⟩
  · obtain ⟨p, i, n, tr, l, fs, rs, rfl⟩ := execTc_footprint he
    exact ⟨rfl, rfl, rfl, rfl, rfl⟩

/-- Settles O48: `command_sameCore`, field by field. -/
theorem hostCommandsKeepTheCursorAndTheLink : Obligations.HostCommandsKeepTheCursorAndTheLink := by
  unfold Obligations.HostCommandsKeepTheCursorAndTheLink
  intro w i s t hd hinit hterm he
  obtain ⟨hphase, hindex, hsnap, htrigger, hlink, hfaults, hrecords⟩ := command_sameCore hd hinit hterm he
  exact ⟨hphase, hindex, hsnap, htrigger, hlink, hfaults, hrecords⟩

/-! ### Sticky marks (R207, R208) -/

/-- From `s` to `t` no mark is taken back and the records are only added to. It reads four fields, so that an update of
any other field of `t` keeps it by definition. -/
def MarksKept (s t : State) : Prop :=
  s.faults ⊆ t.faults ∧ (s.refused = true → t.refused = true) ∧ s.faultRecords <+: t.faultRecords ∧
    s.refusals <+: t.refusals

theorem marksKept_refl (s : State) : MarksKept s s :=
  ⟨List.Subset.refl _, id, List.prefix_rfl, List.prefix_rfl⟩

theorem MarksKept.trans {s t u : State} (h : MarksKept s t) (h' : MarksKept t u) : MarksKept s u := by
  obtain ⟨hfaults, hrefused, hrecords, hrefusals⟩ := h
  obtain ⟨hfaults', hrefused', hrecords', hrefusals'⟩ := h'
  exact ⟨fun _ hc => hfaults' (hfaults hc), hrefused' ∘ hrefused, hrecords.trans hrecords', hrefusals.trans hrefusals'⟩

theorem marksKept_raiseFault (f : FaultRecord) (s : State) : MarksKept s (raiseFault f s) :=
  ⟨fun _ hc => mem_insertFault.2 (.inr hc), id, List.prefix_append _ _, List.prefix_rfl⟩

theorem marksKept_refuse (r : RefusalReason) (s : State) : MarksKept s (refuse r s) :=
  ⟨List.Subset.refl _, fun _ => rfl, List.prefix_rfl, List.prefix_append _ _⟩

theorem marksKept_linkConfigure (m : WireMode) (s : State) : MarksKept s (linkConfigure m s) := by
  cases hi : linkIdle s.link with
  | true =>
    rw [linkConfigure_idle hi]
    exact marksKept_refl s
  | false =>
    rw [linkConfigure_busy hi]
    exact marksKept_raiseFault (.lineCorrupt m) s

theorem marksKept_linkSend (b : Byte) (s : State) : MarksKept s (linkSend b s) := by
  obtain ⟨-, -, h⟩ | ⟨f, h⟩ := linkSend_cases b s
  · rw [h]
    exact marksKept_refl s
  · rw [h]
    exact marksKept_raiseFault f s

theorem marksKept_startCycle (s : State) : MarksKept s (startCycle s) :=
  (marksKept_linkConfigure .brk (linkEnable true (setActiveCount _ (zeroFill s)))).trans
    (marksKept_linkSend Config.breakByte (linkSelect .tc _))

theorem marksKept_sendStartCode (s : State) : MarksKept s (sendStartCode s) :=
  (marksKept_linkConfigure .dat s).trans (marksKept_linkSend Config.startCode (setSnap s.activeCount _))

theorem marksKept_sendBreak (s : State) : MarksKept s (sendBreak s) :=
  (marksKept_linkConfigure .brk s).trans (marksKept_linkSend Config.breakByte _)

theorem marksKept_execInit {s t : State} (h : execInit s = .next t) : MarksKept s t := by
  unfold execInit at h
  split at h
  · cases h; exact marksKept_refuse _ s
  · split at h
    · cases h; exact marksKept_refl s
    · cases h; exact marksKept_startCycle s

theorem marksKept_execBufrd {idx : Nat} {s t : State} (h : execBufrd idx s = .next t) : MarksKept s t := by
  unfold execBufrd at h
  split at h
  · obtain ⟨b, -, h⟩ := orFault_next h
    cases h; exact marksKept_refl s
  · cases h; exact marksKept_refuse _ s

theorem marksKept_execBufwr {idx : Nat} {d : Byte} {s t : State} (h : execBufwr idx d s = .next t) :
    MarksKept s t := by
  unfold execBufwr at h
  split at h
  · obtain ⟨u, hu, h⟩ := orFault_next h
    obtain ⟨m, rfl⟩ := memWrite_footprint hu
    cases h; exact marksKept_refl s
  · cases h; exact marksKept_refuse _ s

theorem marksKept_execSr {s t : State} (h : execSr s = .next t) : MarksKept s t := by
  cases hd : sending s with
  | false =>
    rw [execSr_elsewhere hd] at h
    cases h; exact marksKept_refl s
  | true =>
    rw [execSr_sending hd] at h
    obtain ⟨b, -, h⟩ := orFault_next h
    rw [leaveHandler_eq, advanceCursor_eq] at h
    cases h; exact marksKept_linkSend b s

theorem marksKept_execTc {s t : State} (h : execTc s = .next t) : MarksKept s t := by
  cases hp : s.phase with
  | idle =>
    rw [execTc_idle hp] at h
    cases h; exact marksKept_refl s
  | brk =>
    rw [execTc_brk hp] at h
    cases h; exact marksKept_sendStartCode s
  | startCode =>
    rw [execTc_startCode hp] at h
    cases h; exact marksKept_refl s
  | data =>
    cases hd : draining s with
    | true =>
      rw [execTc_draining hd] at h
      cases h; exact marksKept_sendBreak s
    | false =>
      rw [execTc_data_not_draining hp hd] at h
      cases h; exact marksKept_refl s

theorem marksKept_exec {i : Instr} {s t : State} (h : exec i s = .next t) : MarksKept s t := by
  cases i with
  | init => exact marksKept_execInit h
  | write ch v => obtain ⟨m, n, rfl⟩ := execWrite_footprint h; exact marksKept_refl s
  | read ch => obtain ⟨b, rfl⟩ := execRead_footprint h; exact marksKept_refl s
  | setcount n => cases h; exact marksKept_refl s
  | bufrd idx => exact marksKept_execBufrd h
  | bufwr idx d => exact marksKept_execBufwr h
  | term => obtain ⟨p, tr, l, rfl⟩ := execTerm_footprint h; exact marksKept_refl s
  | sr => exact marksKept_execSr h
  | tc => exact marksKept_execTc h
  | linkEnable e => cases h; exact marksKept_refl s
  | linkConfigure m => cases h; exact marksKept_linkConfigure m s
  | linkSend b => cases h; exact marksKept_linkSend b s
  | linkSelect u => cases h; exact marksKept_refl s

theorem marksKept_of_slotStep {q : Slot} {u t : State} (h : SlotStep q u t) : MarksKept u t := by
  cases h with
  | idle => exact marksKept_refl u
  | refuse => exact marksKept_refuse _ u
  | command _ _ _ he =>
    have hkept := marksKept_exec he
    exact hkept
  | sr _ _ he => exact marksKept_execSr he
  | tc _ _ he =>
    have hkept := marksKept_execTc he
    exact hkept
  | complete =>
    obtain ⟨l, n, hc⟩ := completionStep_footprint u
    rw [hc]
    exact marksKept_refl u
  | abandon =>
    obtain ⟨l, n, hc⟩ := abandonStep_footprint u
    rw [hc]
    exact marksKept_refl u
  | action _ _ he =>
    have hkept := marksKept_exec he
    exact hkept

theorem marksKept_nextSlot (s : State) : MarksKept s (nextSlot s).2 := by
  obtain ⟨rest, hu⟩ | hu := nextSlot_state s
  · rw [hu]; exact marksKept_refl s
  · rw [hu]; exact marksKept_refl s

/-- Settles O50: taking the slot and every move keep the marks. -/
theorem marksAreSticky : Obligations.MarksAreSticky := by
  unfold Obligations.MarksAreSticky
  intro s t hstep
  obtain ⟨hfaults, hrefused, ⟨moreFaults, hrecords⟩, ⟨moreReasons, hrefusals⟩⟩ :=
    (marksKept_nextSlot s).trans (marksKept_of_slotStep (slotStep_of_step hstep))
  exact ⟨fun _ hc => hfaults hc, hrefused, ⟨moreFaults, hrecords.symm⟩, ⟨moreReasons, hrefusals.symm⟩⟩

/-! ### The free slot (R212) -/

theorem nextSlot_free {s : State} (h : s.schedule = []) :
    nextSlot s = (Config.freeSlot s.freeCount, setFreeCount (s.freeCount + 1) s) := by
  simp [nextSlot, h]

/-- Settles O13: the free slot, put on the schedule, leaves the same due slot and the same state with it taken. -/
theorem emptyScheduleTakesSomeSlot : Obligations.EmptyScheduleTakesSomeSlot := by
  unfold Obligations.EmptyScheduleTakesSomeSlot
  intro s hs
  refine ⟨Config.freeSlot s.freeCount, ?_⟩
  have htaken : { s with schedule := [], freeCount := s.freeCount + 1 } = setFreeCount (s.freeCount + 1) s := by
    rw [← hs]; rfl
  have hscheduled := step_scheduled
    (s := { s with schedule := [Config.freeSlot s.freeCount], freeCount := s.freeCount + 1 }) rfl
  rw [hscheduled, step_eq_perform, nextSlot_free hs, ← htaken]
  rfl

/-! ### `Idle` is quiescent (R219) -/

/-- In `Idle` the trigger is `None`, which selects no notification (R32, R202). -/
theorem core_not_enabled_of_idle {s : State} (h : BlockInv s) (hp : s.phase = .idle) : enabled .core s = false := by
  obtain ⟨⟨hidle, -⟩, -⟩ := h
  rw [Bool.eq_false_iff, Ne, enabled_core, hidle.1 hp]
  simp

/-- Settles O55: in `Idle` the core is not enabled. -/
theorem noNotificationInIdle : Obligations.NoNotificationInIdle := by
  unfold Obligations.NoNotificationInIdle
  intro s q h hp hq
  exact step_not_enabled hq (core_not_enabled_of_idle (s := setSchedule q s) h hp)

/-! ### What stays pending from move to move (R212) -/

/-- A byte stays in the shift register until it is completed, or abandoned on a disabled link (R177, R181). -/
theorem move_keeps_shift {q : Slot} {s t : State} {b : Byte} (hmove : Move q s t) (hs : s.link.shift = some b) :
    t.link.shift = some b ∨ q = .complete ∨ (q = .abandon ∧ s.link.en = false) := by
  have hbusy : linkIdle s.link ≠ true := fun hi => by simp [(linkIdle_iff.1 hi).1] at hs
  cases hmove with
  | quiet hsame => exact .inl (by rw [hsame.link, hs])
  | start _ _ _ hi => exact absurd hi hbusy
  | stop => exact .inl hs
  | handled hhandled =>
    cases hhandled with
    | channel => exact .inl (by rw [acceptByte_behind (by simp [hs])]; exact hs)
    | startCode _ hi => exact absurd hi hbusy
    | beginData => exact .inl hs
    | nextBreak _ hi => exact absurd hi hbusy
  | complete => exact .inr (.inl rfl)
  | abandon =>
    cases hen : s.link.en with
    | true => exact .inl (by rw [abandonStep_not_enabled (.inl hen), hs])
    | false => exact .inr (.inr ⟨rfl, rfl⟩)

theorem sameCore_enabled_core {s t : State} (h : SameCore s t) : enabled .core t = enabled .core s := by
  rw [enabled, enabled, deliveryWord, deliveryWord, h.trigger, h.link]

/-- A completion takes no deliverable notification away (R177 to R179). -/
theorem completionStep_keeps_delivery {s : State} (hf : s.faults = []) (hon : enabled .core s = true) :
    enabled .core (completionStep s) = true := by
  cases hs : s.link.shift with
  | none => rwa [completionStep_idle hs]
  | some b =>
    obtain ⟨ht, hl⟩ | ⟨-, hl⟩ := enabled_core.1 hon
    · obtain ⟨hen, hhold⟩ := srq_iff.1 hl
      rw [completionStep_last hf hs hhold]
      exact enabled_core.2 (.inl ⟨ht, srq_iff.2 ⟨hen, hhold⟩⟩)
    · obtain ⟨-, -, hshift, -⟩ := tcq_iff.1 hl
      rw [hshift] at hs
      cases hs

/-- A deliverable notification stays deliverable until it is delivered or TERM stops the cycle. -/
theorem move_keeps_delivery {q : Slot} {s t : State} (h : BlockInv s) (hmove : Move q s t)
    (hon : enabled .core s = true) :
    enabled .core t = true ∨ q = .core ∨
      (q = .host ∧ s.port.head? = some 0x70000000#32 ∧ t.phase = .idle) := by
  have hactive : s.phase ≠ .idle := fun hp => by simp [core_not_enabled_of_idle h hp] at hon
  obtain ⟨-, -, hf, -⟩ := storeInv_of_blockInv h
  cases hmove with
  | quiet hsame => exact .inl (by rw [sameCore_enabled_core hsame, hon])
  | start _ _ hp => exact absurd hp hactive
  | stop hport => exact .inr (.inr ⟨rfl, by rw [hport]; rfl, rfl⟩)
  | handled => exact .inr (.inl rfl)
  | complete => exact .inl (completionStep_keeps_delivery hf hon)
  | abandon hp => exact absurd hp hactive

/-! ### An INIT waiting in `Idle` (R102, R209) -/

/-- In `Idle` an INIT is at the head of the port. -/
def InitWaits (s : State) : Prop := s.phase = .idle ∧ s.port.head? = some 0x10000000#32

/-- The agent whose move brings the waiting INIT on: the host once the link is idle, before that the link. -/
def initAgent (s : State) : Slot := if linkIdle s.link then .host else .complete

theorem initWaits_port {s : State} (hw : InitWaits s) : ∃ ws, s.port = 0x10000000#32 :: ws :=
  List.head?_eq_some_iff.1 hw.2

/-- The waiting INIT is held exactly while the link is busy. -/
theorem initWaits_held {s : State} (hw : InitWaits s) : held .init s = !linkIdle s.link := by
  simp [held, initHeld, hw.1]

theorem enabled_host_of_initWaits {s : State} (hw : InitWaits s) : enabled .host s = linkIdle s.link := by
  obtain ⟨ws, hport⟩ := initWaits_port hw
  simp [enabled, hport, decodeCommand_initWord, initWaits_held hw]

/-- The holding register fills only behind a shifting byte, so a busy link has a byte to complete. -/
theorem enabled_complete_of_busy {s : State} (h : BlockInv s) (hbusy : linkIdle s.link ≠ true) :
    enabled .complete s = true := by
  by_contra hoff
  have hshift : s.link.shift = none := by simpa [enabled] using hoff
  have hhold : s.link.hold = none := by
    by_contra hne
    exact shift_of_hold h hne hshift
  exact hbusy (linkIdle_iff.2 ⟨hshift, hhold⟩)

theorem enabled_initAgent {s : State} (h : BlockInv s) (hw : InitWaits s) : enabled (initAgent s) s = true := by
  unfold initAgent
  split
  next hi => rw [enabled_host_of_initWaits hw, hi]
  next hbusy => exact enabled_complete_of_busy h hbusy

/-- The host's step on an idle link performs the waiting INIT. -/
theorem host_performs_init {s t : State} (hw : InitWaits s) (hi : linkIdle s.link = true)
    (hstep : perform (hostFetch s) = .next t) : t.phase = .brk := by
  obtain ⟨ws, hport⟩ := initWaits_port hw
  have hready : held .init s = false := by rw [initWaits_held hw, hi]; rfl
  rw [hostFetch_command hport decodeCommand_initWord hready] at hstep
  cases (execInit_ready (s := setPort ws s) hw.1 hi).symm.trans hstep
  rfl

theorem abandon_lowers_measure {s : State} (hf : s.faults = []) (hen : s.link.en = false) (hs : s.link.shift ≠ none) :
    cycleMeasure (abandonStep s) < cycleMeasure s := by
  obtain ⟨b, hb⟩ := Option.ne_none_iff_exists'.1 hs
  simp [abandonStep_disabled hf hen hs, cycleMeasure, stepsToGo, bytesHeld, hb]

/-- A link step writes neither the phase nor the port. -/
theorem initWaits_of_footprint {s t : State} {l : Link} {n : Nat} (hw : InitWaits s)
    (ht : t = setFreeCount n (setLink l s)) : InitWaits t := by
  rw [ht]
  exact hw

/-- A waiting INIT is performed, or it goes on waiting and the link holds fewer bytes, or its agent did not move. In
`Idle` `cycleMeasure` counts the link's bytes alone. -/
theorem initWaits_progress {q : Slot} {s t : State} (h : BlockInv s) (hw : InitWaits s)
    (hstep : perform (slotFetch q s) = .next t) :
    (q = .host ∧ t.phase = .brk) ∨
      (InitWaits t ∧ (cycleMeasure t < cycleMeasure s ∨ (t = s ∧ q ≠ initAgent s))) := by
  obtain ⟨-, -, hf, haction⟩ := storeInv_of_blockInv h
  cases hon : enabled q s with
  | false =>
    rw [slotFetch_not_enabled hon] at hstep
    cases hstep
    refine .inr ⟨hw, .inr ⟨rfl, fun hq => ?_⟩⟩
    rw [hq, enabled_initAgent h hw] at hon
    cases hon
  | true =>
    cases q with
    | host =>
      rw [enabled_host_of_initWaits hw] at hon
      exact .inl ⟨rfl, host_performs_init hw hon hstep⟩
    | core => simp [core_not_enabled_of_idle h hw.1] at hon
    | complete =>
      obtain ⟨l, n, hc⟩ := completionStep_footprint s
      cases hstep
      exact .inr ⟨initWaits_of_footprint hw hc, .inl (completion_lowers_measure hf (Option.isSome_iff_ne_none.1 hon))⟩
    | abandon =>
      obtain ⟨l, n, hc⟩ := abandonStep_footprint s
      obtain ⟨hen, hs⟩ : s.link.en = false ∧ s.link.shift.isSome = true := by simpa [enabled] using hon
      cases hstep
      exact .inr ⟨initWaits_of_footprint hw hc, .inl (abandon_lowers_measure hf hen (Option.isSome_iff_ne_none.1 hs))⟩
    | action => simp [enabled, haction] at hon

/-! ### Fair runs (R212) -/

section
variable {states : Nat → State} {due : Nat → Slot} {issued : Nat → List CommandWord}

/-- What keeps an agent enabled and lasts until a goal is met leads to the goal, if the agent's own move meets it. -/
theorem fair_leads_to (hfair : WeaklyFair states due) {pending : State → Prop} {goal : Nat → Prop} {q : Slot} {n : Nat}
    (hpending : pending (states n)) (henabled : ∀ s, pending s → enabled q s = true)
    (hstep : ∀ m, pending (states m) → pending (states (m + 1)) ∨ goal m) (hgoal : ∀ m, due m = q → goal m) :
    ∃ m, n ≤ m ∧ pending (states m) ∧ goal m := by
  by_contra hnever
  have hlasts : ∀ m, n ≤ m → pending (states m) := by
    intro m hm
    induction m, hm using Nat.le_induction with
    | base => exact hpending
    | succ m hm ih => exact (hstep m ih).resolve_right fun hg => hnever ⟨m, hm, ih, hg⟩
  obtain ⟨m, hm, hdue⟩ := hfair q n fun m hm => henabled _ (hlasts m hm)
  exact hnever ⟨m, hm, hlasts m hm, hgoal m hdue⟩

/-- A byte in the shift register is completed, or abandoned on a disabled link. -/
theorem fairRun_clears_shift (hfair : FairRun states due issued) (h0 : BlockInv (states 0)) {n : Nat} {b : Byte}
    (hs : (states n).link.shift = some b) :
    ∃ m, n ≤ m ∧ (states m).link.shift = some b ∧
      (due m = .complete ∨ (due m = .abandon ∧ (states m).link.en = false)) :=
  fair_leads_to hfair.2 (pending := fun s => s.link.shift = some b) (q := .complete) hs
    (fun s hb => by simp [enabled, hb])
    (fun m hb => move_keeps_shift (s := offered states issued m) (move_of_run hfair.1 h0 m) hb)
    (fun _ hdue => .inl hdue)

/-- A deliverable notification is delivered, unless TERM comes first. -/
theorem fairRun_delivers (hfair : FairRun states due issued) (h0 : BlockInv (states 0)) {n : Nat}
    (hon : enabled .core (states n) = true) :
    ∃ m, n ≤ m ∧ enabled .core (states m) = true ∧
      (due m = .core ∨
        (due m = .host ∧ ((states m).port ++ issued m).head? = some 0x70000000#32 ∧ (states (m + 1)).phase = .idle)) :=
  fair_leads_to hfair.2 hon (fun _ => id)
    (fun m hm => move_keeps_delivery (offered_blockInv hfair.1 h0 m) (move_of_run hfair.1 h0 m) hm)
    (fun _ hdue => .inl hdue)

/-- New words go to the end of the port. -/
theorem offered_initWaits {m : Nat} (hw : InitWaits (states m)) : InitWaits (offered states issued m) := by
  obtain ⟨ws, hport⟩ := initWaits_port hw
  exact ⟨hw.1, by simp [offered, hport]⟩

/-- A waiting INIT is performed: while it waits the link runs empty, and then the host's move comes. -/
theorem fairRun_performs_init (hfair : FairRun states due issued) (h0 : BlockInv (states 0)) {n : Nat}
    (hw : InitWaits (states n)) :
    ∃ m, n ≤ m ∧ (states m).phase = .idle ∧ due m = .host ∧ (states (m + 1)).phase = .brk := by
  obtain ⟨hrun, hweak⟩ := hfair
  by_contra hnever
  have hprogress (m : Nat) (hm : n ≤ m) (hw : InitWaits (states m)) :=
    (initWaits_progress (offered_blockInv hrun h0 m) (offered_initWaits hw) (perform_of_run hrun m)).resolve_left
      fun ⟨hdue, hbrk⟩ => hnever ⟨m, hm, hw.1, hdue, hbrk⟩
  have hwaits : ∀ m, n ≤ m → InitWaits (states m) := by
    intro m hm
    induction m, hm using Nat.le_induction with
    | base => exact hw
    | succ m hm ih => exact (hprogress m hm ih).1
  refine no_fair_descent hweak cycleMeasure initAgent (n := n)
    (fun m hm => enabled_initAgent (run_blockInv hrun h0 m) (hwaits m hm)) fun m hm => ?_
  obtain ⟨-, hlt | ⟨hsame, hne⟩⟩ := hprogress m hm (hwaits m hm)
  · exact .inl hlt
  · exact .inr ⟨by rw [hsame]; rfl, by rw [hsame]; rfl, hne⟩

end

/-- Settles O59: what is pending lasts until its agent moves, which fairness grants; the INIT first waits for the link. -/
theorem aFairRunLeavesNothingPending : Obligations.AFairRunLeavesNothingPending := by
  unfold Obligations.AFairRunLeavesNothingPending
  intro states due issued hfair h0 n
  exact ⟨fun b hs => fairRun_clears_shift hfair h0 hs, fairRun_delivers hfair h0,
    fun hp hport => fairRun_performs_init hfair h0 ⟨hp, hport⟩⟩

end Sys2Proof.Proofs
